-- ==== Sys2Proof/Word.lean ====
section
/-! DEFINITION. Word widths, index types and the two accessors of a fixed table. -/

namespace Sys2Proof

abbrev Byte := BitVec 8
abbrev Word16 := BitVec 16
abbrev Word24 := BitVec 24
abbrev Word32 := BitVec 32

/-- Arm number, 0 to 7. -/
abbrev Arm := Fin 8
/-- Meter slot number, 0 to 15. -/
abbrev Slot := Fin 16
/-- Injector channel number, 0 to 11. -/
abbrev Channel := Fin 12

/-- The record of a table at an index. -/
def sel {α : Type} {n : Nat} (v : Vector α n) (i : Fin n) : α := v[i.val]

/-- The table with one record replaced. -/
def put {α : Type} {n : Nat} (v : Vector α n) (i : Fin n) (x : α) : Vector α n :=
  v.set i.val x i.isLt

end Sys2Proof
end

