-- ==== Sys2Proof/Syntax.lean ====
section
/-! DEFINITION. The commands of the block: one constructor of Instr per row of the table, with its operands. -/

namespace Sys2Proof

/-- The three link ports (chapter 1). -/
inductive Port where
  | u | d0 | d1
  deriving DecidableEq, Repr

/-- The two field ports. -/
inductive DPort where
  | d0 | d1
  deriving DecidableEq, Repr

/-- The two streams of an arm. -/
inductive Stream where
  | gasoline | ethanol
  deriving DecidableEq, Repr

/-- The eight tables of TABLE READ and TABLE WRITE (section 10.2). -/
inductive TableId where
  | nodeMap | relayFilter | meter | injector | recipe | arm | settings | header
  deriving DecidableEq, Repr

/-- A frame from destination through CRC (section 11.1); the length octet is the payload's length. -/
structure Frame where
  dst : Byte
  src : Byte
  kind : Byte
  seq : Byte
  payload : List Byte
  crc : Word16
  deriving DecidableEq, Repr

/-- What an answer needs of the request it answers (R14): its source and its sequence octet. -/
structure ReqHead where
  src : Byte
  seq : Byte
  deriving DecidableEq, Repr

/-! Records as transferred in TABLE WRITE (section 11.6), field by field, before any check. -/

structure RawNode where
  valid : Byte
  role : Byte
  arm : Byte
  slot : Byte
  channel : Byte
  port : Byte
  copyUp : Byte
  deriving DecidableEq, Repr

structure RawFilter where
  enabled : Byte
  address : Byte
  mask : Byte
  kinds : Byte
  action : Byte
  deriving DecidableEq, Repr

structure RawBand where
  bound : Word16
  factor : Word24
  deriving DecidableEq, Repr

structure RawMeter where
  valid : Byte
  k : Word24
  format : Byte
  bandCount : Byte
  surge : Word16
  silence : Word16
  bands : Vector RawBand 5
  deriving DecidableEq, Repr

structure RawInjector where
  valid : Byte
  node : Byte
  code : Byte
  stroke : Word16
  out0 : Byte
  out1 : Byte
  policy : Byte
  pace : Byte
  timeLimit : Word16
  check : Word16
  deriving DecidableEq, Repr

structure RawLine where
  code : Byte
  dose : Word16
  mandatory : Byte
  deriving DecidableEq, Repr

structure RawRecipe where
  valid : Byte
  ratio : Word16
  startFlow : Word16
  bulkFlow : Word16
  topFlow : Word16
  startVolume : Word32
  taperVolume : Word32
  closeAhead : Word32
  trimBand : Word24
  trimStep : Byte
  trimLimit : Word16
  devLimit : Byte
  devCount : Byte
  lineCount : Byte
  lines : Vector RawLine 4
  deriving DecidableEq, Repr

structure RawArm where
  enabled : Byte
  priority : Byte
  permit : Byte
  policy : Byte
  deriving DecidableEq, Repr

structure RawSettings where
  controller : Byte
  passUnknown : Byte
  pinLevel : Byte
  response : Word16
  closeLimit : Word16
  permit : Word16
  retry : Word16
  deriving DecidableEq, Repr

structure RawHeader where
  capacity : Byte
  size : Word16
  policy : Byte
  waitLimit : Word24
  spacing : Word16
  deriving DecidableEq, Repr

/-- A management request after its kind, length and subordinate code have been examined (R5, R156);
`bad` is a frame to the engine's address that is none (its kind code is kept for the answer). -/
inductive Request where
  | bad (kind : Byte)
  | tableRead (table : TableId) (index : Byte)
  | writeNode (index : Byte) (r : RawNode)
  | writeFilter (index : Byte) (r : RawFilter)
  | writeMeter (index : Byte) (r : RawMeter)
  | writeInjector (index : Byte) (r : RawInjector)
  | writeRecipe (index : Byte) (r : RawRecipe)
  | writeArm (index : Byte) (r : RawArm)
  | writeSettings (index : Byte) (r : RawSettings)
  | writeHeader (index : Byte) (r : RawHeader)
  | authorize (arm : Byte) (batchId : Word32) (recipe : Byte) (preset : Word32)
  | cancel (arm : Byte)
  | start (arm : Byte)
  | pause (arm : Byte)
  | resume (arm : Byte)
  | stop (arm : Byte)
  | faultReset (arm : Byte)
  | release (arm : Byte)
  | armStatus (arm part first : Byte)
  | engineStatus (part clear : Byte)
  | alertSnapshot (start : Word32)
  | alertAck (mark : Word32)
  | recordFetch
  | recordAck (batchId : Word32)
  | mode (mode force : Byte)
  | restart (confirm : Byte)
  | laneStop (arms : Byte)
  deriving DecidableEq, Repr

/-! Reports as the Relay Unit hands them to their owners (R26). -/

/-- A METER SAMPLE with the slot, arm and stream of its node's entry. -/
structure Sample where
  slot : Slot
  arm : Arm
  stream : Stream
  seq : Byte
  count : Word24
  interval : Word16
  fault : Bool
  deriving DecidableEq, Repr

/-- A VALVE REPORT with the arm, stream and address of its station. -/
structure ValveRpt where
  arm : Arm
  stream : Stream
  station : Byte
  ackSeq : Byte
  flow : Word16
  closed : Bool
  fault : Bool
  deriving DecidableEq, Repr

/-- A STROKE REPORT with the channel of its node's entry and its source. -/
structure StrokeRpt where
  channel : Channel
  source : Byte
  seq : Byte
  confirmed : Bool
  deriving DecidableEq, Repr

/-- The place of the head fault among the faults of one sample (log 5). -/
inductive HeadPlace where
  | first | between | last
  deriving DecidableEq, Repr

/-- The orders inside one meter sample that the spec leaves open (log 5): whether the arm's phase check
precedes the sample's own evaluation (R75), whether the strokes due are worked out before the two or
after them (R133; never between them), whether the sample's faults are raised before its volume is
handed on, and the order of those faults among themselves (R85). -/
structure SampleOrder where
  phaseFirst : Bool
  strokesFirst : Bool
  faultsFirst : Bool
  surgeFirst : Bool
  headPlace : HeadPlace
  deriving DecidableEq, Repr

/-- The commands, one constructor per row of spec/opcode_table.json, in the table's order. -/
inductive Instr where
  | powerOn (straps : BitVec 3) (estopAsserted : Bool)
  | receiveUnit (port : Port) (octets : List Byte)
  | badRequestAnswer (h : ReqHead) (kind : Byte)
  | relayFrame (f : Frame)
  | fieldReport (port : DPort) (f : Frame)
  | transmissionStart (port : Port)
  | frameDeparture (port : Port)
  | tableRead (h : ReqHead) (table : TableId) (index : Byte)
  | tableWriteNodeMap (h : ReqHead) (index : Byte) (r : RawNode)
  | tableWriteRelayFilter (h : ReqHead) (index : Byte) (r : RawFilter)
  | tableWriteMeter (h : ReqHead) (index : Byte) (r : RawMeter)
  | tableWriteInjector (h : ReqHead) (index : Byte) (r : RawInjector)
  | tableWriteRecipe (h : ReqHead) (index : Byte) (r : RawRecipe)
  | tableWriteArm (h : ReqHead) (index : Byte) (r : RawArm)
  | tableWriteSettings (h : ReqHead) (index : Byte) (r : RawSettings)
  | tableWriteHeader (h : ReqHead) (index : Byte) (r : RawHeader)
  | authorize (h : ReqHead) (arm : Byte) (batchId : Word32) (recipe : Byte) (preset : Word32)
  | cancel (h : ReqHead) (arm : Byte)
  | start (h : ReqHead) (arm : Byte)
  | pause (h : ReqHead) (arm : Byte)
  | resume (h : ReqHead) (arm : Byte)
  | stop (h : ReqHead) (arm : Byte)
  | faultReset (h : ReqHead) (arm : Byte)
  | release (h : ReqHead) (arm : Byte)
  | armStatus (h : ReqHead) (arm part first : Byte)
  | engineStatus (h : ReqHead) (part clear : Byte)
  | alertSnapshot (h : ReqHead) (start : Word32)
  | alertAck (h : ReqHead) (mark : Word32)
  | recordFetch (h : ReqHead)
  | recordAck (h : ReqHead) (batchId : Word32)
  | mode (h : ReqHead) (mode force : Byte)
  | restart (h : ReqHead) (confirm : Byte)
  | laneStop (h : ReqHead) (arms : Byte)
  | meterSample (m : Sample) (o : SampleOrder)
  | valveReport (r : ValveRpt)
  | laneStopValveReport (r : ValveRpt)
  | strokeReport (r : StrokeRpt)
  | permitReport (bits : Byte)
  | permitSilenceExpiry
  | meterSilenceExpiry (slot : Slot)
  | closeLimitExpiry (arm : Arm)
  | valveResponseExpiry (arm : Arm) (stream : Stream)
  | strokeTimerExpiry (channel : Channel)
  | waitTimerExpiry (arm : Arm)
  | spacingTimerExpiry
  | servingPass
  | yieldAnswer (arm : Arm)
  | retryTimerExpiry (position : Nat)
  | estopAsserted
  | estopReleased
  | engineSecondsTick
  deriving DecidableEq, Repr

end Sys2Proof
end

