-- ==== Sys2Proof/Decode.lean ====
section
/-! DEFINITION. Words that spell commands. The table gives no row any bits, so no word spells one (log 21). -/

namespace Sys2Proof

/-- The command a word spells by the table's bits: none, since no row has bits (log 21). -/
def decodeTableWord (_nbits _w : Nat) : Option Instr := none

end Sys2Proof
end

