-- ==== Sys2Proof/Config.lean ====
section
/-! DEFINITION. What the part fixes (sizes and bounds, each with its rule) and the free values. -/

namespace Sys2Proof.Config

/-- Frames the Port U queue holds (R9). -/
def queueUSize : Nat := 24
/-- Held plus reserved below which a copy-class frame is admitted (R9). -/
def copyLimit : Nat := 20
/-- Frames a D port's normal queue holds (R12). -/
def normalSize : Nat := 16
/-- Largest unit in octets, destination through CRC (R1, R2). -/
def maxUnit : Nat := 63
/-- Smallest unit in octets (R2). -/
def minUnit : Nat := 7
/-- Largest payload in octets (R2). -/
def maxPayload : Nat := 56
/-- Maximum of a 16-bit saturating counter (R15, R54, R162). -/
def max16 : Nat := 65535
/-- Maximum of a 32-bit saturating count (R63, R64, R116, R161, R162). -/
def max32 : Nat := 4294967295
/-- Records and reservations the Record Store holds together (R45). -/
def storeSize : Nat := 32
/-- Entries of the Alert List (R162). -/
def alertSize : Nat := 32
/-- Cap of an outlet's owed count (R134). -/
def owedCap : Nat := 15
/-- Miss count that isolates a channel (R139). -/
def missLimit : Nat := 4
/-- Retry count at which an expiry declares the members not closed (R150). -/
def retryLimit : Nat := 3
/-- Least stroke interval AUTHORIZE takes, cL (R43). -/
def minInterval : Nat := 500
/-- Unity of the dose computation (R43). -/
def doseUnit : Nat := 10000
/-- Most entries of one ALERT LIST answer (R164). -/
def snapshotEntries : Nat := 5
/-- Most lines of one ARM REPORT part 2 (R160). -/
def reportLines : Nat := 3

/-- FREE VALUE (log 7): an octet standing in the place of an absent field for which chapter 11
gives no absent code. Nothing is known of it. -/
opaque freeOctet : Nat → Byte

end Sys2Proof.Config
end

