-- ==== Sys2Proof/Machine/Operands.lean ====
section
/-! DEFINITION. Operand forms: octet order, the CRC, frames as octets, kind codes, and management requests as payloads. -/

namespace Sys2Proof.Machine

/-! Octet order (00 "Octet order": most significant octet first). -/

/-- `be n v`: n octets of v, most significant first; a value that exceeds the field is sent at the
field's largest value (section 11.1). -/
def beExact : Nat → Nat → List Byte
  | 0, _ => []
  | n + 1, v => beExact n (v / 256) ++ [BitVec.ofNat 8 v]

def be (n v : Nat) : List Byte := beExact n (min v (256 ^ n - 1))

/-- The octet at an offset of a payload (0 past its end). -/
def octet (p : List Byte) (i : Nat) : Byte := p.getD i 0

def u16 (p : List Byte) (i : Nat) : Word16 := octet p i ++ octet p (i + 1)

def u24 (p : List Byte) (i : Nat) : Word24 := octet p i ++ octet p (i + 1) ++ octet p (i + 2)

def u32 (p : List Byte) (i : Nat) : Word32 :=
  octet p i ++ octet p (i + 1) ++ octet p (i + 2) ++ octet p (i + 3)

/-- The octets of a word, most significant first. -/
def o16 (w : Word16) : List Byte := [w.extractLsb' 8 8, w.extractLsb' 0 8]

def o24 (w : Word24) : List Byte := [w.extractLsb' 16 8, w.extractLsb' 8 8, w.extractLsb' 0 8]

def o32 (w : Word32) : List Byte :=
  [w.extractLsb' 24 8, w.extractLsb' 16 8, w.extractLsb' 8 8, w.extractLsb' 0 8]

/-- An octet with the given flags, bit 0 first; bits not given are unused and sent as 0. -/
def flagOctet (bits : List Bool) : Byte :=
  bits.foldr (fun b acc => (acc <<< 1) ||| (if b then 1#8 else 0#8)) 0#8

/-! The CRC (R169): polynomial x^16 + x^12 + x^5 + 1, register 0xFFFF, most significant bit first,
not inverted. -/

def crcBit (r : Word16) (b : Bool) : Word16 :=
  if xor r.msb b then (r <<< 1) ^^^ 0x1021#16 else r <<< 1

def crcOctet (r : Word16) (o : Byte) : Word16 :=
  [7, 6, 5, 4, 3, 2, 1, 0].foldl (fun r i => crcBit r (o.getLsbD i)) r

def crc (os : List Byte) : Word16 := os.foldl crcOctet 0xFFFF#16

/-! Frames (section 11.1). -/

/-- Destination through last payload octet: what the CRC covers. -/
def Frame.body (f : Frame) : List Byte :=
  [f.dst, f.src, f.kind, f.seq, BitVec.ofNat 8 f.payload.length] ++ f.payload

/-- The frame proper, destination through CRC. -/
def Frame.octets (f : Frame) : List Byte := Frame.body f ++ o16 f.crc

/-- The frame as it stands on the line, with its start octet (R14). -/
def Frame.onLine (f : Frame) : List Byte := 0x7E#8 :: Frame.octets f

/-- The frame with its CRC computed anew (R14). -/
def Frame.sealed (f : Frame) : Frame := { f with crc := crc (Frame.body f) }

/-- A frame the engine builds, its CRC computed anew (R14). -/
def mkFrame (dst src kind seq : Byte) (payload : List Byte) : Frame :=
  Frame.sealed { dst := dst, src := src, kind := kind, seq := seq, payload := payload, crc := 0 }

/-- What R2 finds wrong with a unit. -/
inductive UnitError where
  | crcError | formatError
  deriving DecidableEq, Repr

/-- The checks of R2 on a unit, in their order. `size` is the unit's octet count, 64 when it grew
past 63 octets (R1). -/
def checkUnit (os : List Byte) (size : Nat) : Except UnitError Frame :=
  if size < Config.minUnit ∨ Config.maxUnit < size then .error .formatError
  else if crc (os.take (os.length - 2)) ≠ u16 os (os.length - 2) then .error .crcError
  else if Config.maxPayload < (octet os 4).toNat ∨ os.length ≠ 7 + (octet os 4).toNat then
    .error .formatError
  else if octet os 0 = 0xFF#8 then .error .formatError
  else .ok { dst := octet os 0, src := octet os 1, kind := octet os 2, seq := octet os 3,
             payload := (os.drop 5).take (octet os 4).toNat, crc := u16 os (os.length - 2) }

/-! Address classes (00 "Link addresses"). -/

def isController (b : Byte) : Bool := decide (0xF0 ≤ b.toNat ∧ b.toNat ≤ 0xFE)

def isFieldNode (b : Byte) : Bool := decide (0x01 ≤ b.toNat ∧ b.toNat ≤ 0xDF)

def isEngine (b : Byte) : Bool := decide (0xE0 ≤ b.toNat ∧ b.toNat ≤ 0xE7)

/-! Kind codes (section 11.2). -/

def kindMeterSample : Byte := 0x10
def kindValveReport : Byte := 0x11
def kindStrokeReport : Byte := 0x12
def kindPermitReport : Byte := 0x13
def kindValveOrder : Byte := 0x20
def kindStrokeOrder : Byte := 0x21
def kindStopOrder : Byte := 0x22
def kindStopBroadcast : Byte := 0x23
def kindResult : Byte := 0xC0
def kindTableData : Byte := 0xC1
def kindArmReport : Byte := 0xC2
def kindEngineReport : Byte := 0xC3
def kindAlertList : Byte := 0xC4
def kindBatchRecord : Byte := 0xC5

/-- Table codes (section 11.4). -/
def tableCode : TableId → Byte
  | .nodeMap => 0x01 | .relayFilter => 0x02 | .meter => 0x03 | .injector => 0x04
  | .recipe => 0x05 | .arm => 0x06 | .settings => 0x07 | .header => 0x08

def tableOfCode (b : Byte) : Option TableId :=
  [TableId.nodeMap, .relayFilter, .meter, .injector, .recipe, .arm, .settings, .header].find?
    (fun t => tableCode t = b)

/-- Record lengths (section 11.6). -/
def recordLength : TableId → Nat
  | .nodeMap => 7 | .relayFilter => 5 | .meter => 35 | .injector => 13
  | .recipe => 46 | .arm => 4 | .settings => 11 | .header => 9

/-! Records as transferred, read from a payload at offset 2 (section 11.6). -/

def readNode (p : List Byte) : RawNode :=
  { valid := octet p 2, role := octet p 3, arm := octet p 4, slot := octet p 5,
    channel := octet p 6, port := octet p 7, copyUp := octet p 8 }

def readFilter (p : List Byte) : RawFilter :=
  { enabled := octet p 2, address := octet p 3, mask := octet p 4, kinds := octet p 5,
    action := octet p 6 }

def readBand (p : List Byte) (i : Nat) : RawBand := { bound := u16 p i, factor := u24 p (i + 2) }

def readMeter (p : List Byte) : RawMeter :=
  { valid := octet p 2, k := u24 p 3, format := octet p 6, bandCount := octet p 7,
    surge := u16 p 8, silence := u16 p 10,
    bands := #v[readBand p 12, readBand p 17, readBand p 22, readBand p 27, readBand p 32] }

def readInjector (p : List Byte) : RawInjector :=
  { valid := octet p 2, node := octet p 3, code := octet p 4, stroke := u16 p 5,
    out0 := octet p 7, out1 := octet p 8, policy := octet p 9, pace := octet p 10,
    timeLimit := u16 p 11, check := u16 p 13 }

def readLine (p : List Byte) (i : Nat) : RawLine :=
  { code := octet p i, dose := u16 p (i + 1), mandatory := octet p (i + 3) }

def readRecipe (p : List Byte) : RawRecipe :=
  { valid := octet p 2, ratio := u16 p 3, startFlow := u16 p 5, bulkFlow := u16 p 7,
    topFlow := u16 p 9, startVolume := u32 p 11, taperVolume := u32 p 15, closeAhead := u32 p 19,
    trimBand := u24 p 23, trimStep := octet p 26, trimLimit := u16 p 27, devLimit := octet p 29,
    devCount := octet p 30, lineCount := octet p 31,
    lines := #v[readLine p 32, readLine p 36, readLine p 40, readLine p 44] }

def readArm (p : List Byte) : RawArm :=
  { enabled := octet p 2, priority := octet p 3, permit := octet p 4, policy := octet p 5 }

def readSettings (p : List Byte) : RawSettings :=
  { controller := octet p 2, passUnknown := octet p 3, pinLevel := octet p 4, response := u16 p 5,
    closeLimit := u16 p 7, permit := u16 p 9, retry := u16 p 11 }

def readHeader (p : List Byte) : RawHeader :=
  { capacity := octet p 2, size := u16 p 3, policy := octet p 5, waitLimit := u24 p 6,
    spacing := u16 p 9 }

/-- A TABLE WRITE payload whose table code names a table and whose length fits it. -/
def readWrite (t : TableId) (p : List Byte) : Request :=
  let i := octet p 1
  match t with
  | .nodeMap => .writeNode i (readNode p)
  | .relayFilter => .writeFilter i (readFilter p)
  | .meter => .writeMeter i (readMeter p)
  | .injector => .writeInjector i (readInjector p)
  | .recipe => .writeRecipe i (readRecipe p)
  | .arm => .writeArm i (readArm p)
  | .settings => .writeSettings i (readSettings p)
  | .header => .writeHeader i (readHeader p)

/-- An ARM COMMAND payload (section 11.4): AUTHORIZE reads the argument area, the other seven take no
notice of it (section 10.1). -/
def readArmCommand (p : List Byte) : Option Request :=
  let a := octet p 1
  match (octet p 0).toNat with
  | 0x01 => some (.authorize a (u32 p 2) (octet p 6) (u32 p 7))
  | 0x02 => some (.cancel a)
  | 0x03 => some (.start a)
  | 0x04 => some (.pause a)
  | 0x05 => some (.resume a)
  | 0x06 => some (.stop a)
  | 0x07 => some (.faultReset a)
  | 0x08 => some (.release a)
  | _ => none

/-- The request of a kind and payload, none where the kind, the length or the subordinate code is not
one of the formats chapter's (R5, section 10.1). -/
def readRequest (kind : Byte) (p : List Byte) : Option Request :=
  let n := p.length
  match kind.toNat with
  | 0x80 => if n = 2 then (tableOfCode (octet p 0)).map (fun t => .tableRead t (octet p 1)) else none
  | 0x81 =>
    match tableOfCode (octet p 0) with
    | some t => if n = 2 + recordLength t then some (readWrite t p) else none
    | none => none
  | 0x82 => if n = 11 then readArmCommand p else none
  | 0x83 => if n = 3 then some (.armStatus (octet p 0) (octet p 1) (octet p 2)) else none
  | 0x84 => if n = 2 then some (.engineStatus (octet p 0) (octet p 1)) else none
  | 0x85 => if n = 4 then some (.alertSnapshot (u32 p 0)) else none
  | 0x86 => if n = 4 then some (.alertAck (u32 p 0)) else none
  | 0x87 => if n = 0 then some .recordFetch else none
  | 0x88 => if n = 4 then some (.recordAck (u32 p 0)) else none
  | 0x89 => if n = 2 then some (.mode (octet p 0) (octet p 1)) else none
  | 0x8A => if n = 1 then some (.restart (octet p 0)) else none
  | 0x8B => if n = 1 then some (.laneStop (octet p 0)) else none
  | _ => none

/-- The request a received frame to the engine's address is (R5): anything that is no management
request of the right length is answered BAD_REQUEST. -/
def parseRequest (f : Frame) : Request := (readRequest f.kind f.payload).getD (.bad f.kind)

/-! The other direction, from the same layouts: the kind code and the payload of a request. -/

def Request.kindCode : Request → Byte
  | .bad k => k
  | .tableRead .. => 0x80
  | .writeNode .. | .writeFilter .. | .writeMeter .. | .writeInjector .. | .writeRecipe ..
  | .writeArm .. | .writeSettings .. | .writeHeader .. => 0x81
  | .authorize .. | .cancel .. | .start .. | .pause .. | .resume .. | .stop .. | .faultReset ..
  | .release .. => 0x82
  | .armStatus .. => 0x83
  | .engineStatus .. => 0x84
  | .alertSnapshot .. => 0x85
  | .alertAck .. => 0x86
  | .recordFetch => 0x87
  | .recordAck .. => 0x88
  | .mode .. => 0x89
  | .restart .. => 0x8A
  | .laneStop .. => 0x8B

def writeBand (b : RawBand) : List Byte := o16 b.bound ++ o24 b.factor

def writeLine (l : RawLine) : List Byte := [l.code] ++ o16 l.dose ++ [l.mandatory]

/-- An ARM COMMAND with an empty argument area. -/
def plainArmCommand (code arm : Byte) : List Byte := [code, arm] ++ List.replicate 9 0#8

def Request.payload : Request → List Byte
  | .bad _ => []
  | .tableRead t i => [tableCode t, i]
  | .writeNode i r =>
    [tableCode .nodeMap, i, r.valid, r.role, r.arm, r.slot, r.channel, r.port, r.copyUp]
  | .writeFilter i r =>
    [tableCode .relayFilter, i, r.enabled, r.address, r.mask, r.kinds, r.action]
  | .writeMeter i r =>
    [tableCode .meter, i, r.valid] ++ o24 r.k ++ [r.format, r.bandCount] ++ o16 r.surge ++
      o16 r.silence ++ r.bands.toList.flatMap writeBand
  | .writeInjector i r =>
    [tableCode .injector, i, r.valid, r.node, r.code] ++ o16 r.stroke ++
      [r.out0, r.out1, r.policy, r.pace] ++ o16 r.timeLimit ++ o16 r.check
  | .writeRecipe i r =>
    [tableCode .recipe, i, r.valid] ++ o16 r.ratio ++ o16 r.startFlow ++ o16 r.bulkFlow ++
      o16 r.topFlow ++ o32 r.startVolume ++ o32 r.taperVolume ++ o32 r.closeAhead ++
      o24 r.trimBand ++ [r.trimStep] ++ o16 r.trimLimit ++ [r.devLimit, r.devCount, r.lineCount] ++
      r.lines.toList.flatMap writeLine
  | .writeArm i r => [tableCode .arm, i, r.enabled, r.priority, r.permit, r.policy]
  | .writeSettings i r =>
    [tableCode .settings, i, r.controller, r.passUnknown, r.pinLevel] ++ o16 r.response ++
      o16 r.closeLimit ++ o16 r.permit ++ o16 r.retry
  | .writeHeader i r =>
    [tableCode .header, i, r.capacity] ++ o16 r.size ++ [r.policy] ++ o24 r.waitLimit ++
      o16 r.spacing
  | .authorize a b n p => [0x01, a] ++ o32 b ++ [n] ++ o32 p
  | .cancel a => plainArmCommand 0x02 a
  | .start a => plainArmCommand 0x03 a
  | .pause a => plainArmCommand 0x04 a
  | .resume a => plainArmCommand 0x05 a
  | .stop a => plainArmCommand 0x06 a
  | .faultReset a => plainArmCommand 0x07 a
  | .release a => plainArmCommand 0x08 a
  | .armStatus a p f => [a, p, f]
  | .engineStatus p c => [p, c]
  | .alertSnapshot n => o32 n
  | .alertAck m => o32 m
  | .recordFetch => []
  | .recordAck b => o32 b
  | .mode m f => [m, f]
  | .restart c => [c]
  | .laneStop s => [s]

end Sys2Proof.Machine
end

