-- ==== Sys2Proof/Machine/State.lean ====
section
/-! DEFINITION. The state of the block, block by block as the spec divides it, and its value at reset. -/

namespace Sys2Proof.Machine

/-- Reasons a command could stop the block with a fault. The spec gives none: bad input is dropped
and counted or answered, and an arm fault is an effect on State. So the type has no constructor. -/
inductive Fault : Type
  deriving DecidableEq, Repr

/-- Reasons a command is refused by the model. -/
inductive Refusal where
  /-- Raised by an arm of exec for a command that has no meaning yet; safe. No arm uses it. -/
  | notModelled (mnemonic : String)
  deriving DecidableEq, Repr

/-- A timer: stopped, or running with the limit in ms it was started with (log 3). -/
abbrev Timer := Option Nat

/-! ## Management Unit -/

/-- Engine mode (R159). -/
inductive Mode where
  | standby | run
  deriving DecidableEq, Repr

/-- The Engine Settings record (R158). -/
structure Settings where
  controller : Byte
  passUnknown : Bool
  pinLevel : Nat
  responseLimit : Nat
  closeLimit : Nat
  permitLimit : Nat
  retryInterval : Nat
  deriving DecidableEq, Repr

structure MgmtState where
  ownAddr : Byte
  mode : Mode
  settings : Settings
  seconds : Nat
  deriving DecidableEq, Repr

/-! ## Link Port Unit -/

/-- A receive framer (R1): waiting for a start octet, or collecting a unit of which at most 63
octets are stored; `grown` tells that it grew past them. -/
inductive Framer where
  | waiting
  | collecting (octets : List Byte) (grown : Bool)
  deriving DecidableEq, Repr

/-- The counters every port keeps (R15). -/
structure Counters where
  crcErrors : Nat
  formatErrors : Nat
  unknownSource : Nat
  misdirected : Nat
  copiesDropped : Nat
  deriving DecidableEq, Repr

/-- An admitted frame of Port U that waits to be taken, with the slot reserved for its answer
(R5, R6). -/
inductive UItem where
  | request (h : ReqHead) (r : Request)
  | relay (f : Frame)
  deriving DecidableEq, Repr

structure PortU where
  framer : Framer
  waiting : List UItem
  queue : List Frame
  sending : Option (List Byte)
  counters : Counters
  requestsDropped : Nat
  deriving DecidableEq, Repr

/-- A frame of an urgent queue (R10, R148). -/
inductive StopFrame where
  | broadcast (seq : Byte) (arms : Byte)
  | order (seq : Byte) (station : Byte)
  deriving DecidableEq, Repr

/-- Whose a frame of a normal queue is (R12). -/
inductive Owner where
  | relayed
  | valveOrder (arm : Arm) (stream : Stream)
  | strokeOrder (channel : Channel)
  deriving DecidableEq, Repr

structure NormalFrame where
  frame : Frame
  owner : Owner
  deriving DecidableEq, Repr

/-- A frame in transmission on a D port: which queue's head it is, and its octets on the line. -/
structure Sending where
  urgent : Bool
  octets : List Byte
  deriving DecidableEq, Repr

structure PortD where
  framer : Framer
  reports : List Frame
  urgent : List StopFrame
  normal : List NormalFrame
  sending : Option Sending
  counters : Counters
  deriving DecidableEq, Repr

/-! ## Relay Unit -/

/-- Roles of the Node Map (R18). -/
inductive Role where
  | meterGasoline | meterEthanol | valveGasoline | valveEthanol | injector | permit | passive
  deriving DecidableEq, Repr

structure NodeEntry where
  valid : Bool
  role : Role
  arm : Arm
  slot : Slot
  channel : Channel
  port : DPort
  copyUp : Bool
  deriving DecidableEq, Repr

/-- Actions of a Relay Filter (R32). -/
inductive Action where
  | relay | block | relayWhenIdle
  deriving DecidableEq, Repr

structure Filter where
  enabled : Bool
  address : Byte
  mask : Byte
  /-- Bit n is kind class n of section 11.6. -/
  kinds : Byte
  action : Action
  deriving DecidableEq, Repr

structure RelayState where
  nodeMap : Vector NodeEntry 223
  filters : Vector Filter 8
  deriving DecidableEq, Repr

/-! ## Meter Unit -/

structure Band where
  bound : Nat
  factor : Nat
  deriving DecidableEq, Repr

/-- A Meter Table record (R51). The format is kept as its code, since a record written with valid = no
keeps its fields as written (log 11). -/
structure MeterRec where
  valid : Bool
  k : Nat
  format : Byte
  bands : List Band
  surge : Nat
  silence : Nat
  deriving DecidableEq, Repr

/-- The run state of a slot (R54). -/
structure MeterRun where
  lastSeq : Option Byte
  lastCount : Nat
  remainder : Nat
  lastFlow : Nat
  gapCount : Nat
  headFault : Bool
  headRaised : Bool
  silent : Bool
  stray : Bool
  timer : Timer
  deriving DecidableEq, Repr

structure MeterState where
  table : Vector MeterRec 16
  run : Vector MeterRun 16
  samples : List Sample
  unassigned : Vector Nat 8
  deriving DecidableEq, Repr

/-! ## Alert kinds (needed by the Arm Contexts too) -/

/-- Alert kinds, which are also the fault codes (R162, section 11.5). -/
inductive AlertKind where
  | permitLost | meterSilent | meterSurge | meterGap | meterHeadFault | valveNoResponse
  | valveStationFault | blendDeviation | additiveLost | estop | laneStop | valveNotClosed
  | injectorNoFlow | headerWait | additiveOverrun | flowAfterClose | powerUp | restarted
  deriving DecidableEq, Repr

/-! ## Arm Sequencer -/

inductive HeaderPolicy where
  | hold | yield
  deriving DecidableEq, Repr

/-- An Arm Table record (R35). -/
structure ArmRec where
  enabled : Bool
  priority : Nat
  permitRequired : Bool
  policy : HeaderPolicy
  deriving DecidableEq, Repr

/-- An additive line of a recipe (R37); the mandatory octet is kept as written (log 11). -/
structure RecipeLine where
  code : Nat
  dose : Nat
  mandatory : Byte
  deriving DecidableEq, Repr

/-- A Recipe Table record (R37). -/
structure Recipe where
  valid : Bool
  ratio : Nat
  startFlow : Nat
  bulkFlow : Nat
  topFlow : Nat
  startVolume : Nat
  taperVolume : Nat
  closeAhead : Nat
  trimBand : Nat
  trimStep : Nat
  trimLimit : Nat
  devLimit : Nat
  devCount : Nat
  lines : List RecipeLine
  deriving DecidableEq, Repr

/-- The ten arm states (R69). -/
inductive ArmPhase where
  | idle | ready | waiting | starting | filling | topping | closing | paused | halted | done
  deriving DecidableEq, Repr

/-- Close reasons, lowest rank first (R80). -/
inductive CloseReason where
  | theEnd | pause | stop | fault
  deriving DecidableEq, Repr

/-- End reasons (R91). -/
inductive EndReason where
  | complete | stopped | abandoned | restart
  deriving DecidableEq, Repr

/-- What a batch fixes at AUTHORIZE (R46). -/
structure Batch where
  id : Word32
  recipeNo : Fin 32
  snapshot : Recipe
  preset : Nat
  deriving DecidableEq, Repr

/-- State of an additive line of a batch (R46); outlet 1 is `true`. -/
structure LineState where
  channel : Channel
  outlet : Bool
  vs : Nat
  due : Nat
  delivered : Nat
  dropped : Nat
  deriving DecidableEq, Repr

/-- An Arm Context (R46, R48, R96). -/
structure ArmCtx where
  state : ArmPhase
  batch : Option Batch
  reservedSlot : Bool
  g : Nat
  e : Nat
  phaseBase : Nat
  startTime : Option Nat
  closeReason : Option CloseReason
  faultCode : Option AlertKind
  trim : Int
  flow : Nat
  ethDemand : Nat
  gasDemand : Nat
  devRun : Nat
  maxDev : Nat
  paceHold : Bool
  lines : List LineState
  flowAfterClose : Bool
  deviationSeen : Bool
  deriving DecidableEq, Repr

/-- The close limit timer and the settled flags of an arm (R79, R81). -/
structure CloseRun where
  timer : Timer
  gasSettled : Bool
  ethSettled : Bool
  deriving DecidableEq, Repr

structure ArmState where
  table : Vector ArmRec 8
  recipes : Vector Recipe 32
  ctx : Vector ArmCtx 8
  closing : Vector CloseRun 8
  /-- Bit n is arm n's permit bit (R87). -/
  permits : Byte
  permitTimer : Timer
  permitReports : List Byte
  deriving DecidableEq, Repr

/-! ## Blend Regulator -/

/-- The order in flight of a Valve Order Channel (R102). -/
structure ValveFlight where
  seq : Byte
  demand : Nat
  departed : Bool
  timer : Timer
  deriving DecidableEq, Repr

/-- The last report a station gave (R102). -/
structure HeldReport where
  ackSeq : Byte
  flow : Word16
  closed : Bool
  fault : Bool
  deriving DecidableEq, Repr

/-- A Valve Order Channel (R102). It is AWAITING exactly while an order is in flight. The
pending-slot mark keeps the port it waits on (log 9). -/
structure ValveChan where
  inFlight : Option ValveFlight
  latched : Option Nat
  pendingSlot : Option DPort
  lastSent : Option Nat
  expiryCount : Nat
  nextSeq : Byte
  held : Option HeldReport
  deriving DecidableEq, Repr

structure RegState where
  gas : Vector ValveChan 8
  eth : Vector ValveChan 8
  watch : Vector Bool 8
  reports : List ValveRpt
  deriving DecidableEq, Repr

/-! ## Header Allocator -/

inductive GrantPolicy where
  | priority | arrival
  deriving DecidableEq, Repr

/-- The HEADER record (R114). -/
structure HeaderRec where
  capacity : Nat
  shareSize : Nat
  policy : GrantPolicy
  waitLimit : Nat
  spacing : Nat
  deriving DecidableEq, Repr

/-- A grant record (R116). -/
structure Grant where
  sReq : Nat
  sMin : Nat
  granted : Nat
  yieldPending : Bool
  order : Option Nat
  deriving DecidableEq, Repr

structure WaitTimer where
  timer : Timer
  raised : Bool
  deriving DecidableEq, Repr

structure HeaderState where
  record : HeaderRec
  effective : Nat
  pendingCap : Option Nat
  grants : Vector Grant 8
  queue : List Arm
  grantCounter : Nat
  waitTimers : Vector WaitTimer 8
  spacing : Timer
  /-- A serving pass has been called for and not yet made (R119, log 13). -/
  passCalled : Bool
  /-- Answers the Blend Regulator has given and the Allocator has not yet taken (R124, log 18). -/
  yieldAnswers : List Arm
  deriving DecidableEq, Repr

/-! ## Injector Scheduler -/

inductive OutletPolicy where
  | fixed | alternate
  deriving DecidableEq, Repr

/-- An Injector Table record (R130). -/
structure InjRec where
  valid : Bool
  node : Byte
  code : Nat
  stroke : Nat
  out0 : Option Arm
  out1 : Option Arm
  policy : OutletPolicy
  pace : Nat
  timeLimit : Nat
  check : Nat
  deriving DecidableEq, Repr

inductive InjPhase where
  | unconfigured | available | stroking | isolated
  deriving DecidableEq, Repr

/-- Where a stroke in flight stands in its line's counts (R132). -/
inductive Charge where
  | owed | dropped | uncounted
  deriving DecidableEq, Repr

structure StrokeFlight where
  outlet : Bool
  seq : Byte
  flowAtOrder : Nat
  charge : Charge
  departed : Bool
  timer : Timer
  deriving DecidableEq, Repr

/-- The run state of a channel (R132). The stroke-ready mark keeps the port it waits on (log 9). -/
structure InjRun where
  state : InjPhase
  owed0 : Nat
  owed1 : Nat
  lastServed : Bool
  missCount : Nat
  inFlight : Option StrokeFlight
  strokeReady : Option DPort
  nextSeq : Byte
  deriving DecidableEq, Repr

structure InjState where
  table : Vector InjRec 12
  run : Vector InjRun 12
  reports : List StrokeRpt
  deriving DecidableEq, Repr

/-! ## Lane Stop Unit -/

structure TrackSet where
  members : List Byte
  retry : Nat
  timer : Timer
  deriving DecidableEq, Repr

structure StopState where
  tracking : List TrackSet
  /-- The not-closed mark of node address n + 1 is element n (R146). -/
  marks : Vector Bool 223
  stopSeq : Byte
  trip : Bool
  estop : Bool
  reports : List ValveRpt
  deriving DecidableEq, Repr

/-! ## Reporting Unit -/

/-- The subject of an alert (R162). -/
inductive Subject where
  | nobody
  | arm (a : Arm)
  | node (n : Byte)
  | channel (c : Channel)
  deriving DecidableEq, Repr

/-- An entry of the Alert List (R162); its level is fixed by its kind. -/
structure Alert where
  kind : AlertKind
  subject : Subject
  number : Nat
  acknowledged : Bool
  present : Bool
  deriving DecidableEq, Repr

structure RecordLine where
  code : Nat
  due : Nat
  delivered : Nat
  deriving DecidableEq, Repr

/-- A batch record (R91, R92). -/
structure BatchRecord where
  id : Word32
  arm : Arm
  recipeNo : Fin 32
  reason : EndReason
  additiveShort : Bool
  flowAfterClose : Bool
  deviationSeen : Bool
  preset : Nat
  g : Nat
  e : Nat
  maxDev : Nat
  startTime : Option Nat
  endTime : Nat
  lines : List RecordLine
  deriving DecidableEq, Repr

structure RepState where
  alerts : List Alert
  raiseCounter : Nat
  lost : Nat
  highestLost : Nat
  alertOut : Bool
  records : List BatchRecord
  reserved : Nat
  deriving DecidableEq, Repr

/-! ## The whole block -/

structure State where
  mgmt : MgmtState
  portU : PortU
  d0 : PortD
  d1 : PortD
  relay : RelayState
  meter : MeterState
  arms : ArmState
  reg : RegState
  header : HeaderState
  inj : InjState
  stop : StopState
  rep : RepState
  /-- The commands that wait, first in, first out. -/
  pending : List Instr
  /-- The model's own counter to which free octets are applied (log 7). -/
  free : Nat
  deriving DecidableEq, Repr

/-! ## Power-on values -/

/-- R15: zero after power-on and after RESTART. -/
def Counters.zero : Counters := ⟨0, 0, 0, 0, 0⟩

/-- R158. -/
def Settings.initial : Settings :=
  { controller := 0xF0, passUnknown := false, pinLevel := 2, responseLimit := 500,
    closeLimit := 8000, permitLimit := 1000, retryInterval := 300 }

/-- R18. -/
def NodeEntry.initial : NodeEntry :=
  { valid := false, role := .meterGasoline, arm := 0, slot := 0, channel := 0, port := .d0,
    copyUp := false }

/-- R32. -/
def Filter.initial : Filter :=
  { enabled := false, address := 0, mask := 0, kinds := 0, action := .relay }

/-- R51. -/
def MeterRec.initial : MeterRec :=
  { valid := false, k := 0, format := 0, bands := [], surge := 0, silence := 0 }

/-- R54. -/
def MeterRun.cleared : MeterRun :=
  { lastSeq := none, lastCount := 0, remainder := 0, lastFlow := 0, gapCount := 0,
    headFault := false, headRaised := false, silent := false, stray := false, timer := none }

/-- R35. -/
def ArmRec.initial : ArmRec :=
  { enabled := false, priority := 0, permitRequired := true, policy := .hold }

/-- R37. -/
def Recipe.initial : Recipe :=
  { valid := false, ratio := 0, startFlow := 0, bulkFlow := 0, topFlow := 0, startVolume := 0,
    taperVolume := 0, closeAhead := 0, trimBand := 0, trimStep := 0, trimLimit := 0, devLimit := 0,
    devCount := 0, lines := [] }

/-- The context values of IDLE (R48). -/
def ArmCtx.idle : ArmCtx :=
  { state := .idle, batch := none, reservedSlot := false, g := 0, e := 0, phaseBase := 0,
    startTime := none, closeReason := none, faultCode := none, trim := 0, flow := 0,
    ethDemand := 0, gasDemand := 0, devRun := 0, maxDev := 0, paceHold := false, lines := [],
    flowAfterClose := false, deviationSeen := false }

/-- R95: no close limit timer or settle record exists. -/
def CloseRun.cleared : CloseRun := { timer := none, gasSettled := false, ethSettled := false }

/-- R102. -/
def ValveChan.initial : ValveChan :=
  { inFlight := none, latched := none, pendingSlot := none, lastSent := none, expiryCount := 0,
    nextSeq := 0, held := none }

/-- R114. -/
def HeaderRec.initial : HeaderRec :=
  { capacity := 0, shareSize := 10, policy := .arrival, waitLimit := 60000, spacing := 0 }

/-- R116. -/
def Grant.zero : Grant :=
  { sReq := 0, sMin := 0, granted := 0, yieldPending := false, order := none }

/-- R116. -/
def WaitTimer.stopped : WaitTimer := { timer := none, raised := false }

/-- R130. -/
def InjRec.initial : InjRec :=
  { valid := false, node := 0x01, code := 0, stroke := 0, out0 := none, out1 := none,
    policy := .fixed, pace := 0, timeLimit := 0, check := 0 }

/-- R132. -/
def InjRun.initial : InjRun :=
  { state := .unconfigured, owed0 := 0, owed1 := 0, lastServed := true, missCount := 0,
    inFlight := none, strokeReady := none, nextSeq := 0 }

/-- R16: a port U with empty queue and no reservation. -/
def PortU.initial : PortU :=
  { framer := .waiting, waiting := [], queue := [], sending := none, counters := .zero,
    requestsDropped := 0 }

/-- R16, R154: a D port whose urgent queue holds the untracked power-on broadcast. -/
def PortD.initial (stopSeq : Byte) : PortD :=
  { framer := .waiting, reports := [], urgent := [.broadcast stopSeq 0xFF], normal := [],
    sending := none, counters := .zero }

/-- The machine right after reset: the power-on values of R154, with the straps read as 0 and ESTOP_N
found deasserted (DESIGN CHOICE, log 4). The two power-on broadcasts have taken stop sequences 0 and
1, and POWER_UP has been raised with number 1. -/
def State.reset : State :=
  { mgmt := { ownAddr := 0xE0, mode := .standby, settings := .initial, seconds := 0 }
    portU := .initial
    d0 := .initial 0
    d1 := .initial 1
    relay := { nodeMap := Vector.replicate 223 .initial, filters := Vector.replicate 8 .initial }
    meter := { table := Vector.replicate 16 .initial, run := Vector.replicate 16 .cleared,
               samples := [], unassigned := Vector.replicate 8 0 }
    arms := { table := Vector.replicate 8 .initial, recipes := Vector.replicate 32 .initial,
              ctx := Vector.replicate 8 .idle, closing := Vector.replicate 8 .cleared,
              permits := 0, permitTimer := none, permitReports := [] }
    reg := { gas := Vector.replicate 8 .initial, eth := Vector.replicate 8 .initial,
             watch := Vector.replicate 8 false, reports := [] }
    header := { record := .initial, effective := 0, pendingCap := none,
                grants := Vector.replicate 8 .zero, queue := [], grantCounter := 0,
                waitTimers := Vector.replicate 8 .stopped, spacing := none, passCalled := false,
                yieldAnswers := [] }
    inj := { table := Vector.replicate 12 .initial, run := Vector.replicate 12 .initial,
             reports := [] }
    stop := { tracking := [], marks := Vector.replicate 223 false, stopSeq := 2, trip := false,
              estop := false, reports := [] }
    rep := { alerts := [{ kind := .powerUp, subject := .nobody, number := 1, acknowledged := false,
                          present := false }],
             raiseCounter := 1, lost := 0, highestLost := 0, alertOut := false, records := [],
             reserved := 0 }
    pending := []
    free := 0 }

end Sys2Proof.Machine
end

