-- ==== Sys2Proof/Machine/Ops.lean ====
section
/-! DEFINITION. Named operations over the blocks' registers, the bindings of the Node Map, and the port queues. -/

namespace Sys2Proof.Machine

/-! ## Index literals and small helpers -/

def allArms : List Arm := [0, 1, 2, 3, 4, 5, 6, 7]

def allChannels : List Channel := [0, 1, 2, 3, 4, 5, 6, 7, 8, 9, 10, 11]

def armOf (b : Byte) : Option Arm :=
  if h : b.toNat < 8 then some ⟨b.toNat, h⟩ else none

def slotOf (b : Byte) : Option Slot :=
  if h : b.toNat < 16 then some ⟨b.toNat, h⟩ else none

def channelOf (b : Byte) : Option Channel :=
  if h : b.toNat < 12 then some ⟨b.toNat, h⟩ else none

/-- A saturating increment (00 "Counters"). -/
def bump (top n : Nat) : Nat := min (n + 1) top

/-- A saturating addition (00 "Counters"). -/
def satAdd (top n k : Nat) : Nat := min (n + k) top

/-- Bit n of an arm set is arm n. -/
def inSet (arms : Byte) (a : Arm) : Bool := arms.getLsbD a.val

/-- A division that rounds up (R117). -/
def ceilDiv (n d : Nat) : Nat := (n + d - 1) / d

/-- A table with a function applied to each record. -/
def mapVec {α : Type} {n : Nat} (f : α → α) (v : Vector α n) : Vector α n :=
  ⟨⟨v.toList.map f⟩, by simp⟩

/-! ## Accessors: one home for each register -/

/-- The result of a command: the spec gives every command a next state. -/
abbrev Result := Host.Outcome State Fault Refusal

namespace State

def ctxOf (s : State) (a : Arm) : ArmCtx := sel s.arms.ctx a

def setCtx (s : State) (a : Arm) (c : ArmCtx) : State :=
  { s with arms := { s.arms with ctx := put s.arms.ctx a c } }

def modCtx (s : State) (a : Arm) (f : ArmCtx → ArmCtx) : State := s.setCtx a (f (s.ctxOf a))

def closeOf (s : State) (a : Arm) : CloseRun := sel s.arms.closing a

def setClose (s : State) (a : Arm) (c : CloseRun) : State :=
  { s with arms := { s.arms with closing := put s.arms.closing a c } }

def armRec (s : State) (a : Arm) : ArmRec := sel s.arms.table a

def meterRec (s : State) (i : Slot) : MeterRec := sel s.meter.table i

def meterRun (s : State) (i : Slot) : MeterRun := sel s.meter.run i

def setMeterRun (s : State) (i : Slot) (r : MeterRun) : State :=
  { s with meter := { s.meter with run := put s.meter.run i r } }

def chan (s : State) (a : Arm) : Stream → ValveChan
  | .gasoline => sel s.reg.gas a
  | .ethanol => sel s.reg.eth a

def setChan (s : State) (a : Arm) (st : Stream) (c : ValveChan) : State :=
  match st with
  | .gasoline => { s with reg := { s.reg with gas := put s.reg.gas a c } }
  | .ethanol => { s with reg := { s.reg with eth := put s.reg.eth a c } }

def setWatch (s : State) (a : Arm) (b : Bool) : State :=
  { s with reg := { s.reg with watch := put s.reg.watch a b } }

def grantOf (s : State) (a : Arm) : Grant := sel s.header.grants a

def setGrant (s : State) (a : Arm) (g : Grant) : State :=
  { s with header := { s.header with grants := put s.header.grants a g } }

def setWaitTimer (s : State) (a : Arm) (t : WaitTimer) : State :=
  { s with header := { s.header with waitTimers := put s.header.waitTimers a t } }

def injRec (s : State) (c : Channel) : InjRec := sel s.inj.table c

def injRun (s : State) (c : Channel) : InjRun := sel s.inj.run c

def setInjRun (s : State) (c : Channel) (r : InjRun) : State :=
  { s with inj := { s.inj with run := put s.inj.run c r } }

def portD (s : State) : DPort → PortD
  | .d0 => s.d0
  | .d1 => s.d1

def setPortD (s : State) (p : DPort) (x : PortD) : State :=
  match p with
  | .d0 => { s with d0 := x }
  | .d1 => { s with d1 := x }

/-! ## Arm states (00 "State groups") -/

def phase (s : State) (a : Arm) : ArmPhase := (s.ctxOf a).state

end State

/-- STARTING, FILLING, TOPPING. -/
def isFlowing : ArmPhase → Bool
  | .starting | .filling | .topping => true
  | _ => false

/-- Neither IDLE nor DONE. -/
def isActive : ArmPhase → Bool
  | .idle | .done => false
  | _ => true

/-- The states in which metered volume goes to the batch (R63). -/
def takesVolume : ArmPhase → Bool
  | .starting | .filling | .topping | .closing | .paused | .halted => true
  | _ => false

/-- A flowing state or CLOSING. -/
def isMoving (p : ArmPhase) : Bool := isFlowing p || decide (p = .closing)

/-- A flowing state or WAITING. -/
def isRunning (p : ArmPhase) : Bool := isFlowing p || decide (p = .waiting)

/-- The snapshot a context acts for; an arm with no batch has none, and nothing reads it (log 15). -/
def ArmCtx.recipe (c : ArmCtx) : Recipe :=
  match c.batch with
  | some b => b.snapshot
  | none => .initial

/-- Blend total T (00 "Terms"). -/
def ArmCtx.total (c : ArmCtx) : Nat := c.g + c.e

def ArmCtx.preset (c : ArmCtx) : Nat :=
  match c.batch with
  | some b => b.preset
  | none => 0

/-- remaining = preset − T, not below 0 (R74). -/
def ArmCtx.remaining (c : ArmCtx) : Nat := ArmCtx.preset c - ArmCtx.total c

def RecipeLine.isMandatory (l : RecipeLine) : Bool := decide (l.mandatory = 1)

/-! ## The Node Map and its bindings (R18, R19) -/

/-- The index of a node address in the tables that hold one record for each field node. -/
def nodeIndex (addr : Byte) : Option (Fin 223) :=
  if h : 1 ≤ addr.toNat ∧ addr.toNat ≤ 223 then some ⟨addr.toNat - 1, by omega⟩ else none

def nodeAt (s : State) (addr : Byte) : NodeEntry :=
  match nodeIndex addr with
  | some i => sel s.relay.nodeMap i
  | none => .initial

/-- The valid entries with their addresses, in ascending address. -/
def validNodes (s : State) : List (Byte × NodeEntry) :=
  (s.relay.nodeMap.toList.zipIdx 1).filterMap
    (fun (e, n) => if e.valid then some (BitVec.ofNat 8 n, e) else none)

def meterRole : Stream → Role
  | .gasoline => .meterGasoline
  | .ethanol => .meterEthanol

def valveRole : Stream → Role
  | .gasoline => .valveGasoline
  | .ethanol => .valveEthanol

/-- The stream of a meter role. -/
def streamOfMeter : Role → Option Stream
  | .meterGasoline => some .gasoline
  | .meterEthanol => some .ethanol
  | _ => none

/-- The stream of a valve role. -/
def streamOfValve : Role → Option Stream
  | .valveGasoline => some .gasoline
  | .valveEthanol => some .ethanol
  | _ => none

/-- The meter binding of an arm and stream: its slot (R19). -/
def meterSlot (s : State) (a : Arm) (st : Stream) : Option Slot :=
  ((validNodes s).find? (fun (_, e) => decide (e.role = meterRole st ∧ e.arm = a))).map
    (fun (_, e) => e.slot)

/-- The station binding of an arm and stream: its address and entry (R19). -/
def station (s : State) (a : Arm) (st : Stream) : Option (Byte × NodeEntry) :=
  (validNodes s).find? (fun (_, e) => decide (e.role = valveRole st ∧ e.arm = a))

/-- The head binding of a channel: the valid INJECTOR entry that names it, when its address is the
one the channel's record holds (R19, R130). -/
def headBinding (s : State) (c : Channel) : Option (Byte × NodeEntry) :=
  (validNodes s).find?
    (fun (n, e) => decide (e.role = .injector ∧ e.channel = c ∧ n = (s.injRec c).node))

/-- The meter slots bound to an arm (R19). -/
def boundSlots (s : State) (a : Arm) : List Slot :=
  [meterSlot s a .gasoline, meterSlot s a .ethanol].filterMap id

/-- The valve stations bound to an arm, as addresses. -/
def armStations (s : State) (a : Arm) : List Byte :=
  [station s a .gasoline, station s a .ethanol].filterMap (fun b => b.map Prod.fst)

/-- The arm named by the valid meter entry of a slot (R66, R67). -/
def slotArm (s : State) (i : Slot) : Option Arm :=
  ((validNodes s).find? (fun (_, e) => decide ((streamOfMeter e.role).isSome ∧ e.slot = i))).map
    (fun (_, e) => e.arm)

/-- The arms an injector record names. -/
def InjRec.arms (r : InjRec) : List Arm := [r.out0, r.out1].filterMap id

/-- The arm a record names for an outlet. -/
def InjRec.outletArm (r : InjRec) (outlet : Bool) : Option Arm := if outlet then r.out1 else r.out0

/-- The arms a node is bound to (R19). -/
def nodeArms (s : State) (addr : Byte) : List Arm :=
  let e := nodeAt s addr
  if e.valid then
    match e.role with
    | .meterGasoline | .meterEthanol | .valveGasoline | .valveEthanol => [e.arm]
    | .injector =>
      let r := s.injRec e.channel
      if r.valid ∧ r.node = addr then InjRec.arms r else []
    | .permit | .passive => []
  else []

/-- The node is bound to an active arm (R19). -/
def boundToActive (s : State) (addr : Byte) : Bool :=
  (nodeArms s addr).any (fun a => isActive (s.phase a))

/-- Some node of the Node Map is bound to an active arm (R30, R33). -/
def anyBoundToActive (s : State) : Bool := (validNodes s).any (fun (n, _) => boundToActive s n)

/-! ## Counters (R15) -/

/-- One of the counters every port keeps. -/
inductive CounterId where
  | crcErrors | formatErrors | unknownSource | misdirected | copiesDropped
  deriving DecidableEq, Repr

def Counters.count (c : Counters) : CounterId → Counters
  | .crcErrors => { c with crcErrors := bump Config.max16 c.crcErrors }
  | .formatErrors => { c with formatErrors := bump Config.max16 c.formatErrors }
  | .unknownSource => { c with unknownSource := bump Config.max16 c.unknownSource }
  | .misdirected => { c with misdirected := bump Config.max16 c.misdirected }
  | .copiesDropped => { c with copiesDropped := bump Config.max16 c.copiesDropped }

def countU (i : CounterId) (s : State) : State :=
  { s with portU := { s.portU with counters := Counters.count s.portU.counters i } }

def countD (p : DPort) (i : CounterId) (s : State) : State :=
  s.setPortD p { s.portD p with counters := Counters.count (s.portD p).counters i }

def countDropped (s : State) : State :=
  { s with portU := { s.portU with requestsDropped := bump Config.max16 s.portU.requestsDropped } }

/-! ## Port U queue (R5, R6, R9) -/

/-- Frames held plus slots reserved. Each waiting frame holds one reserved slot. -/
def heldPlusReserved (s : State) : Nat := s.portU.queue.length + s.portU.waiting.length

/-- A slot can be reserved for an answer (R5). -/
def slotFree (s : State) : Bool := decide (heldPlusReserved s < Config.queueUSize)

/-- A frame joins the tail of the Port U queue. -/
def joinU (f : Frame) (s : State) : State :=
  { s with portU := { s.portU with queue := s.portU.queue ++ [f] } }

/-- A copy-class frame from a D port is offered to the Port U queue (R9). -/
def offerCopy (p : DPort) (f : Frame) (s : State) : State :=
  if heldPlusReserved s < Config.copyLimit then joinU f s
  else countD p .copiesDropped (countU .copiesDropped s)

/-- An answer from the engine's own address to the request's source, with its sequence (R14). -/
def answerFrame (s : State) (h : ReqHead) (kind : Byte) (payload : List Byte) : Frame :=
  mkFrame h.src s.mgmt.ownAddr kind h.seq payload

def answer (h : ReqHead) (kind : Byte) (payload : List Byte) (s : State) : State :=
  joinU (answerFrame s h kind payload) s

/-- Result codes (section 11.5). -/
inductive Code where
  | done | badRequest | badIndex | badValue | wrongMode | wrongState | inUse | conflict
  | bindingMissing | noInjector | duplicateId | noRecordSpace | notPermitted | conditionPresent
  | armsActive | empty | notOldest | blocked | busy
  deriving DecidableEq, Repr

def Code.octet : Code → Byte
  | .done => 0x00 | .badRequest => 0x01 | .badIndex => 0x02 | .badValue => 0x03
  | .wrongMode => 0x04 | .wrongState => 0x05 | .inUse => 0x06 | .conflict => 0x07
  | .bindingMissing => 0x08 | .noInjector => 0x0A | .duplicateId => 0x0B | .noRecordSpace => 0x0C
  | .notPermitted => 0x0D | .conditionPresent => 0x0E | .armsActive => 0x0F | .empty => 0x10
  | .notOldest => 0x11 | .blocked => 0x12 | .busy => 0x13

/-- A RESULT frame (section 11.5) joins the Port U queue. -/
def result (h : ReqHead) (kind : Byte) (c : Code) (s : State) : State :=
  answer h kindResult [kind, Code.octet c] s

/-! ## Whose turn it is among waiting frames and reports (log 1) -/

/-- The place of an item among those that wait. -/
inductive Turn where
  /-- It is the next to be taken. -/
  | now
  /-- It waits behind others. -/
  | later
  /-- It is not waiting. -/
  | absent
  deriving DecidableEq, Repr

def turnIn {α : Type} [DecidableEq α] (xs : List α) (x : α) : Turn :=
  if xs.head? = some x then .now else if x ∈ xs then .later else .absent

/-- Remove the first item equal to x. -/
def dropItem {α : Type} [DecidableEq α] (x : α) : List α → List α
  | [] => []
  | y :: ys => if y = x then ys else y :: dropItem x ys

/-- Take an item from a block's list of handed-over items, among those of its class, which keep their
order. At its turn it leaves the list and is taken; behind others it stays; an item that is not
waiting is handed over now, and is taken if none of its class is ahead of it. The answer is the list
left and whether the item is taken. -/
def takeFrom {α : Type} [DecidableEq α] (sameClass : α → Bool) (xs : List α) (x : α) :
    List α × Bool :=
  match turnIn (xs.filter sameClass) x with
  | .now => (dropItem x xs, true)
  | .later => (xs, false)
  | .absent => if (xs.filter sameClass).isEmpty then (xs, true) else (xs ++ [x], false)

def UItem.isRequest : UItem → Bool
  | .request .. => true
  | .relay .. => false

/-- The waiting frames that must be taken before an item (R5, R29, R17): a request waits for the
requests before it, a relay frame for the relay frames before it, and a RESTART for the requests
before it and for every waiting relay frame, so that each of those is answered as if the restart
came after it. A request received after the RESTART request and before it is carried out keeps its turn
(R156) and is answered after it, where R17 and R155 may be read otherwise (log 14). -/
def aheadOf (x : UItem) (xs : List UItem) : List UItem :=
  match x with
  | .request _ (.restart _) =>
    xs.filter (fun y => !UItem.isRequest y) ++ xs.filter UItem.isRequest
  | .request _ _ => xs.filter UItem.isRequest
  | .relay _ => xs.filter (fun y => !UItem.isRequest y)

/-- Take a frame of Port U, a request or a relay frame. At its turn it gives back its reserved slot
and is acted on. Behind others it waits. A frame not yet received is received now: it is admitted if
a slot can be reserved (R5, R6), counts REQUESTS_DROPPED otherwise, and is acted on at once if no
frame is ahead of it. -/
def takeU (x : UItem) (act : State → State) (s : State) : State :=
  let w := s.portU.waiting
  match turnIn (aheadOf x w) x with
  | .now => act { s with portU := { s.portU with waiting := dropItem x w } }
  | .later => s
  | .absent =>
    if slotFree s then
      if (aheadOf x w).isEmpty then act s
      else { s with portU := { s.portU with waiting := w ++ [x] } }
    else countDropped s

/-! ## D port queues (R10 to R13) -/

def normalRoom (s : State) (p : DPort) : Bool :=
  decide ((s.portD p).normal.length < Config.normalSize)

def joinNormal (p : DPort) (f : NormalFrame) (s : State) : State :=
  s.setPortD p { s.portD p with normal := (s.portD p).normal ++ [f] }

/-- Split off the head of a queue when it is in transmission. -/
def begunPart {α : Type} (begun : Bool) (xs : List α) : List α × List α :=
  if begun then (xs.take 1, xs.drop 1) else ([], xs)

def normalBegun (x : PortD) : Bool :=
  match x.sending with
  | some t => !t.urgent
  | none => false

def urgentBegun (x : PortD) : Bool :=
  match x.sending with
  | some t => t.urgent
  | none => false

/-- The union rule of R10: a waiting broadcast takes the union of the two sets. None when no
broadcast waits. -/
def mergeBroadcast (arms : Byte) : List StopFrame → Option (List StopFrame)
  | [] => none
  | .broadcast q old :: rest => some (.broadcast q (old ||| arms) :: rest)
  | x :: rest => (mergeBroadcast arms rest).map (x :: ·)

/-- A STOP BROADCAST is offered to a port's urgent queue (R10, R148). -/
def offerBroadcast (arms : Byte) (p : DPort) (s : State) : State :=
  let x := s.portD p
  let parts := begunPart (urgentBegun x) x.urgent
  match mergeBroadcast arms parts.2 with
  | some merged => s.setPortD p { x with urgent := parts.1 ++ merged }
  | none =>
    let t := s.setPortD p { x with urgent := x.urgent ++ [.broadcast s.stop.stopSeq arms] }
    { t with stop := { t.stop with stopSeq := t.stop.stopSeq + 1 } }

def isOrderFor (station : Byte) : StopFrame → Bool
  | .order _ n => decide (n = station)
  | .broadcast .. => false

/-- A STOP ORDER for a station is offered to the urgent queue of its port (R10, R148). -/
def offerStopOrder (addr : Byte) (s : State) : State :=
  let p := (nodeAt s addr).port
  let x := s.portD p
  if (begunPart (urgentBegun x) x.urgent).2.any (isOrderFor addr) then s
  else
    let t := s.setPortD p { x with urgent := x.urgent ++ [.order s.stop.stopSeq addr] }
    { t with stop := { t.stop with stopSeq := t.stop.stopSeq + 1 } }

/-- The frame of a stop entry (R14, R148). -/
def stopFrame (own : Byte) : StopFrame → Frame
  | .broadcast q arms => mkFrame 0x00 own kindStopBroadcast q [arms]
  | .order q addr => mkFrame addr own kindStopOrder q []

/-! ## Lane-stop readings (R146) -/

def isTracked (s : State) (addr : Byte) : Bool :=
  s.stop.tracking.any (fun t => t.members.contains addr)

def isMarked (s : State) (addr : Byte) : Bool :=
  match nodeIndex addr with
  | some i => sel s.stop.marks i
  | none => false

/-- The Lane Stop Unit tracks a valve station bound to the arm. -/
def armTracked (s : State) (a : Arm) : Bool := (armStations s a).any (isTracked s)

/-- A VALVE_NOT_CLOSED condition is present on a station of the arm. -/
def armMarked (s : State) (a : Arm) : Bool := (armStations s a).any (isMarked s)

/-- The arm's permit bit (R87). -/
def permitBit (s : State) (a : Arm) : Bool := inSet s.arms.permits a

/-! ## Serving passes are called for (R119) -/

/-- While the spacing timer runs its expiry makes the pass, so none is called for. -/
def callPass (s : State) : State :=
  match s.header.spacing with
  | some _ => s
  | none => { s with header := { s.header with passCalled := true } }

end Sys2Proof.Machine
end

