-- ==== Sys2Proof/Machine/Flags.lean ====
section
/-! DEFINITION. Flag computations: standing conditions, the Alert List, and the ALERT_N and TRIP outputs. -/

namespace Sys2Proof.Machine

/-! ## The valve condition and the waited meters (R81) -/

def heldClosed (c : ValveChan) : Bool :=
  match c.held with
  | some r => r.closed
  | none => false

def heldFault (c : ValveChan) : Bool :=
  match c.held with
  | some r => r.fault
  | none => false

def ratioOf (s : State) (a : Arm) : Nat := (ArmCtx.recipe (s.ctxOf a)).ratio

/-- Every waited valve's channel holds a report with the closed flag set (R81). -/
def valveCondition (s : State) (a : Arm) : Bool :=
  heldClosed (s.chan a .gasoline) &&
    (decide (ratioOf s a = 0) || heldClosed (s.chan a .ethanol))

def meterSilentNow (s : State) (a : Arm) (st : Stream) : Bool :=
  match meterSlot s a st with
  | some i => (s.meterRun i).silent
  | none => false

/-- Every waited meter is settled; a silent meter is not waited for (R81). A settled flag outlasts a silence:
R81 clears flags only with the valve condition, and leaves open whether a meter that had settled before it fell
silent is settled still when it is heard again with a delta above 0 (DESIGN CHOICE, log 34). -/
def metersSettled (s : State) (a : Arm) : Bool :=
  ((s.closeOf a).gasSettled || meterSilentNow s a .gasoline) &&
    (decide (ratioOf s a = 0) || (s.closeOf a).ethSettled || meterSilentNow s a .ethanol)

/-! ## Additive lines (R84, R140) -/

/-- A mandatory line of the arm is bound to an ISOLATED channel. -/
def mandatoryIsolated (s : State) (a : Arm) : Bool :=
  let c := s.ctxOf a
  (c.lines.zip (ArmCtx.recipe c).lines).any
    (fun (l, r) => RecipeLine.isMandatory r && decide ((s.injRun l.channel).state = .isolated))

/-! ## Standing conditions (R84, R64, R128, R139, R149, R152) -/

/-- The condition of an alert of a kind and subject is present. A kind without a standing condition
has none (R162). -/
def standing (s : State) : AlertKind → Subject → Bool
  | .permitLost, .arm a => !permitBit s a
  | .meterSilent, .arm a => (boundSlots s a).any (fun i => (s.meterRun i).silent)
  | .meterHeadFault, .arm a => (boundSlots s a).any (fun i => (s.meterRun i).headFault)
  | .valveStationFault, .arm a => heldFault (s.chan a .gasoline) || heldFault (s.chan a .ethanol)
  | .additiveLost, .arm a => mandatoryIsolated s a
  | .estop, .arm _ => s.stop.estop
  | .estop, .nobody => s.stop.estop
  | .laneStop, .arm a => armTracked s a
  | .valveNotClosed, .arm a => armTracked s a || armMarked s a
  | .valveNotClosed, .node n => isMarked s n
  | .injectorNoFlow, .channel c => decide ((s.injRun c).state = .isolated)
  | .headerWait, .arm a =>
    decide (s.phase a = .waiting) && (sel s.header.waitTimers a).raised
  | .flowAfterClose, .arm a => (boundSlots s a).any (fun i => (s.meterRun i).stray)
  | _, _ => false

/-- FAULT RESET is held back by this (R86): the standing condition of the fault code, or a station of
the arm tracked or not closed. -/
def faultStands (s : State) (a : Arm) : Bool :=
  (match (s.ctxOf a).faultCode with
   | some k => standing s k (.arm a)
   | none => false) || armTracked s a || armMarked s a

/-! ## The Alert List (R162, R163, R166) -/

/-- Levels by kind (R162). -/
def levelOf : AlertKind → Nat
  | .estop | .valveNotClosed => 3
  | .headerWait | .additiveOverrun | .flowAfterClose | .powerUp | .restarted => 1
  | .permitLost | .meterSilent | .meterSurge | .meterGap | .meterHeadFault | .valveNoResponse
  | .valveStationFault | .blendDeviation | .additiveLost | .laneStop | .injectorNoFlow => 2

/-- ALERT_N is asserted while an unacknowledged entry has a level at or above the pin level (R166). -/
def alertLine (pinLevel : Nat) (xs : List Alert) : Bool :=
  xs.any (fun x => !x.acknowledged && decide (pinLevel ≤ levelOf x.kind))

/-- The list becomes xs, and ALERT_N is judged afresh (R166). -/
def setAlerts (xs : List Alert) (s : State) : State :=
  { s with rep := { s.rep with alerts := xs, alertOut := alertLine s.mgmt.settings.pinLevel xs } }

/-- An entry whose condition has ended loses it, or is removed when acknowledged (R163). -/
def settleEntry (s : State) (x : Alert) : Option Alert :=
  if x.present && !standing s x.kind x.subject then
    if x.acknowledged then none else some { x with present := false }
  else some x

/-- Judge the conditions of all entries against the causes as they stand (R163, log 12). -/
def settleAlerts (s : State) : State := setAlerts (s.rep.alerts.filterMap (settleEntry s)) s

def isEntry (k : AlertKind) (j : Subject) (x : Alert) : Bool :=
  decide (x.kind = k ∧ x.subject = j)

/-- The raise of an alert (R162). -/
def enterAlert (k : AlertKind) (j : Subject) (s : State) : State :=
  let n := bump Config.max32 s.rep.raiseCounter
  let t := { s with rep := { s.rep with raiseCounter := n } }
  if s.rep.alerts.any (isEntry k j) then
    setAlerts (s.rep.alerts.map (fun x => if isEntry k j x then
      { x with number := n, acknowledged := false, present := true } else x)) t
  else if s.rep.alerts.length < Config.alertSize then
    setAlerts (s.rep.alerts ++
      [{ kind := k, subject := j, number := n, acknowledged := false, present := true }]) t
  else
    { t with rep := { t.rep with lost := bump Config.max16 t.rep.lost, highestLost := n } }

/-- A raise, taken after the conditions that have ended before it are judged (log 12). -/
def raiseAlert (k : AlertKind) (j : Subject) (s : State) : State :=
  enterAlert k j (settleAlerts s)

/-! ## TRIP (R151) -/

/-- TRIP is asserted while any station has its not-closed mark set. -/
def tripLine (marks : Vector Bool 223) : Bool := marks.toList.any id

/-- A mark is set or cleared and TRIP judged afresh (R149, R150, R151). -/
def setMark (addr : Byte) (b : Bool) (s : State) : State :=
  match nodeIndex addr with
  | some i =>
    let m := put s.stop.marks i b
    { s with stop := { s.stop with marks := m, trip := tripLine m } }
  | none => s

end Sys2Proof.Machine
end

