-- ==== Sys2Proof/Machine/Valves.lean ====
section
/-! DEFINITION. The Blend Regulator: flow target and demands (R97 to R100), Valve Order Channels (R102 to R104), rest and cap evaluations. -/

namespace Sys2Proof.Machine

/-! ## Valve Order Channels -/

/-- The channel puts an order carrying a demand in a port's normal queue and enters AWAITING
(R104, first case). -/
def sendValveOrder (a : Arm) (st : Stream) (d : Nat) (addr : Byte) (p : DPort) (s : State) : State :=
  let c := s.chan a st
  let f := mkFrame addr s.mgmt.ownAddr kindValveOrder c.nextSeq (be 2 d)
  (joinNormal p { frame := f, owner := .valveOrder a st } s).setChan a st
    { c with
      inFlight := some { seq := c.nextSeq, demand := d, departed := false, timer := none }
      lastSent := some d
      latched := none
      pendingSlot := none
      nextSeq := c.nextSeq + 1 }

/-- A channel places an order (R104). -/
def placeOrder (a : Arm) (st : Stream) (d : Nat) (s : State) : State :=
  let c := s.chan a st
  match station s a st with
  | none => s.setChan a st { c with latched := none, pendingSlot := none }
  | some (addr, e) =>
    if normalRoom s e.port then sendValveOrder a st d addr e.port s
    else s.setChan a st { c with pendingSlot := some e.port, latched := some d }

/-- A demand handed to a channel by an evaluation (R103). -/
def handDemand (a : Arm) (st : Stream) (d : Nat) (s : State) : State :=
  let c := s.chan a st
  match c.inFlight with
  | some o => s.setChan a st { c with latched := if o.demand = d then none else some d }
  | none =>
    if c.pendingSlot.isSome then
      s.setChan a st { c with latched := if c.lastSent = some d then none else some d }
    else if c.lastSent = some d then s
    else placeOrder a st d s

/-! ## Flow target and demands -/

/-- The share cap of an arm (R96, R124): S_min while a yield is pending, its granted shares
otherwise. -/
def shareCap (g : Grant) : Nat := if g.yieldPending then g.sMin else g.granted

/-- The phase flow (R98). -/
def phaseFlow (r : Recipe) : ArmPhase → Nat
  | .starting => r.startFlow
  | .filling => r.bulkFlow
  | .topping => r.topFlow
  | _ => 0

/-- The flow target of an evaluation in a flowing state (R98). -/
def flowTarget (r : Recipe) (p : ArmPhase) (cap shareSize : Nat) (pace : Bool) : Nat :=
  let f1 := phaseFlow r p
  let f2 := if r.ratio = 0 then f1 else min f1 (cap * shareSize * 1000 / r.ratio)
  if pace then min f2 r.topFlow else f2

/-- Fe′: base ethanol demand plus trim, clamped to 0 to F (R100). -/
def ethanolDemand (flow ratio : Nat) (trim : Int) : Nat :=
  min (((flow * ratio / 1000 : Nat) : Int) + trim).toNat flow

/-- F and the two demands from the values an evaluation reads (R98, R100). -/
def withDemands (c : ArmCtx) (cap shareSize : Nat) : ArmCtx :=
  let r := ArmCtx.recipe c
  let f := flowTarget r c.state cap shareSize c.paceHold
  let fe := if r.ratio = 0 then 0 else ethanolDemand f r.ratio c.trim
  { c with flow := f, ethDemand := fe, gasDemand := f - fe }

/-- The demands a context holds are handed to the arm's channels, the gasoline channel first; with
R = 0 the ethanol channel is handed nothing (R100, R112). -/
def handDemands (a : Arm) (s : State) : State :=
  let c := s.ctxOf a
  let t := handDemand a .gasoline c.gasDemand s
  if (ArmCtx.recipe c).ratio = 0 then t else handDemand a .ethanol c.ethDemand t

/-- A cap evaluation (R97): it uses the trim as it stands. -/
def capEval (a : Arm) (s : State) : State :=
  handDemands a (s.modCtx a
    (fun c => withDemands c (shareCap (s.grantOf a)) s.header.record.shareSize))

/-- A cap evaluation for an arm in a flowing state, none for any other (R97). -/
def capEvalIfFlowing (a : Arm) (s : State) : State :=
  if isFlowing (s.phase a) then capEval a s else s

/-- A rest evaluation (R97). -/
def restEval (a : Arm) (s : State) : State :=
  handDemands a (s.modCtx a (fun c => { c with flow := 0, ethDemand := 0, gasDemand := 0 }))

/-- The trim step of a sample evaluation (R99). -/
def trimStep (c : ArmCtx) : Int :=
  let r := ArmCtx.recipe c
  if r.ratio = 0 then c.trim
  else
    let err : Int := (c.e : Int) - ((ArmCtx.total c * r.ratio / 1000 : Nat) : Int)
    let moved : Int :=
      if err < -(r.trimBand : Int) then c.trim + r.trimStep
      else if (r.trimBand : Int) < err then c.trim - r.trimStep
      else c.trim
    max (-(r.trimLimit : Int)) (min moved r.trimLimit)

/-- The deviation check applies (R101). -/
def checksDeviation (c : ArmCtx) : Bool :=
  decide (c.state = .filling ∨ c.state = .topping) &&
    decide ((ArmCtx.recipe c).startVolume ≤ ArmCtx.total c ∧ 0 < ArmCtx.total c)

/-- The ratio error in per-mille (R101). -/
def deviation (c : ArmCtx) : Nat :=
  ((((c.e * 1000 / ArmCtx.total c : Nat) : Int) - ((ArmCtx.recipe c).ratio : Int))).natAbs

/-- The deviation check of a sample evaluation (R101). -/
def deviationCheck (c : ArmCtx) : ArmCtx :=
  let d := deviation c
  if (ArmCtx.recipe c).devLimit < d then
    { c with maxDev := max c.maxDev d, devRun := bump 15 c.devRun, deviationSeen := true }
  else { c with maxDev := max c.maxDev d, devRun := 0 }

/-- The evaluation raises BLEND_DEVIATION: the check was made, counted, and the run count has reached
the deviation count (R101). The context is the one after the check. -/
def deviationFault (c : ArmCtx) : Bool :=
  checksDeviation c && decide ((ArmCtx.recipe c).devLimit < deviation c) &&
    decide ((ArmCtx.recipe c).devCount ≤ c.devRun)

/-- Trim, then deviation check (R97). -/
def sampleUpdate (c : ArmCtx) : ArmCtx :=
  let c1 := { c with trim := trimStep c }
  if checksDeviation c1 then deviationCheck c1 else c1

/-! ## Offers of a freed slot (R13) -/

/-- A pending channel is offered a freed slot of a port. The answer tells whether it takes it. It
declines, and its mark is cleared, when it no longer has an order for this port (R13, R104, log 9). -/
def offerToValve (p : DPort) (a : Arm) (st : Stream) (s : State) : State × Bool :=
  let c := s.chan a st
  if c.pendingSlot ≠ some p then (s, false)
  else
    match c.latched, station s a st with
    | none, _ => (s.setChan a st { c with pendingSlot := none }, false)
    | some _, none => (s.setChan a st { c with latched := none, pendingSlot := none }, false)
    | some d, some (addr, e) =>
      if e.port = p then (sendValveOrder a st d addr p s, true)
      else (s.setChan a st { c with pendingSlot := none }, false)

end Sys2Proof.Machine
end

