-- ==== Sys2Proof/Machine/Strokes.lean ====
section
/-! DEFINITION. The Injector Scheduler's shared operations: serving outlets (R135), strokes due (R133, R134), pace hold (R141), and slot offers (R13). -/

namespace Sys2Proof.Machine

def InjRun.owed (r : InjRun) (outlet : Bool) : Nat := if outlet then r.owed1 else r.owed0

def InjRun.setOwed (r : InjRun) (outlet : Bool) (n : Nat) : InjRun :=
  if outlet then { r with owed1 := n } else { r with owed0 := n }

/-- The outlet a channel chooses by its policy; none when neither is owed (R135). -/
def chooseOutlet (policy : OutletPolicy) (r : InjRun) : Option Bool :=
  if r.owed0 = 0 ∧ r.owed1 = 0 then none
  else
    match policy with
    | .fixed => some (decide (r.owed0 = 0))
    | .alternate =>
      if 0 < InjRun.owed r (!r.lastServed) then some (!r.lastServed) else some r.lastServed

/-- The flow target of the outlet's arm at this moment (R135). -/
def outletFlow (s : State) (c : Channel) (outlet : Bool) : Nat :=
  match InjRec.outletArm (s.injRec c) outlet with
  | some a => (s.ctxOf a).flow
  | none => 0

/-- A STROKE ORDER joins the normal queue and the channel enters STROKING (R135, first case). -/
def sendStroke (c : Channel) (outlet : Bool) (addr : Byte) (p : DPort) (s : State) : State :=
  let r := s.injRun c
  let f := mkFrame addr s.mgmt.ownAddr kindStrokeOrder r.nextSeq [if outlet then 1#8 else 0#8]
  (joinNormal p { frame := f, owner := .strokeOrder c } s).setInjRun c
    { r with
      state := .stroking
      inFlight := some { outlet := outlet, seq := r.nextSeq, flowAtOrder := outletFlow s c outlet,
                         charge := .owed, departed := false, timer := none }
      lastServed := outlet
      strokeReady := none
      nextSeq := r.nextSeq + 1 }

/-- A channel serves its outlets (R135). A channel whose stroke is ready already waits for a slot and
places nothing. -/
def serveChannel (c : Channel) (s : State) : State :=
  let r := s.injRun c
  if r.state ≠ .available ∨ r.strokeReady.isSome then s
  else
    match chooseOutlet (s.injRec c).policy r, headBinding s c with
    | some outlet, some (addr, e) =>
      if normalRoom s e.port then sendStroke c outlet addr e.port s
      else s.setInjRun c { r with strokeReady := some e.port }
    | _, _ => s

/-- A waiting channel is offered a freed slot of a port (R13, R135). -/
def offerToInjector (p : DPort) (c : Channel) (s : State) : State × Bool :=
  let r := s.injRun c
  if r.strokeReady ≠ some p then (s, false)
  else
    match chooseOutlet (s.injRec c).policy r, headBinding s c with
    | some outlet, some (addr, e) =>
      if r.state = .available ∧ e.port = p then (sendStroke c outlet addr p s, true)
      else (s.setInjRun c { r with strokeReady := none }, false)
    | _, _ => (s.setInjRun c { r with strokeReady := none }, false)

/-- The waiters of a port in offer order (R13). -/
inductive Waiter where
  | valve (a : Arm) (st : Stream)
  | injector (c : Channel)
  deriving DecidableEq, Repr

def waiters : List Waiter :=
  allArms.flatMap (fun a => [.valve a .gasoline, .valve a .ethanol]) ++ allChannels.map .injector

def offerTo (p : DPort) : Waiter → State → State × Bool
  | .valve a st, s => offerToValve p a st s
  | .injector c, s => offerToInjector p c s

/-- A freed slot is offered along a list of waiters until one takes it (R13). -/
def offerAlong (p : DPort) : List Waiter → State → State
  | [], s => s
  | w :: ws, s =>
    match offerTo p w s with
    | (t, true) => t
    | (t, false) => offerAlong p ws t

/-- A freed slot of a port's normal queue is offered to its waiters (R13). -/
def offerSlot (p : DPort) (s : State) : State := offerAlong p waiters s

/-- One offer for each freed slot (R31). -/
def offerSlots (p : DPort) : Nat → State → State
  | 0, s => s
  | n + 1, s => offerSlots p n (offerSlot p s)

/-! ## Pace hold (R141) -/

/-- Owed count and pace limit of each of the arm's outlets. -/
def outletLoads (s : State) (a : Arm) : List (Nat × Nat) :=
  (s.ctxOf a).lines.map
    (fun l => (InjRun.owed (s.injRun l.channel) l.outlet, (s.injRec l.channel).pace))

/-- Pace hold as judged from the loads, with the value held (R141). -/
def paceOf (loads : List (Nat × Nat)) (held : Bool) : Bool :=
  if loads.any (fun (n, lim) => decide (lim ≤ n)) then true
  else if loads.all (fun (n, lim) => decide (n ≤ lim / 2)) then false
  else held

/-- The arm's pace hold is judged; a change in a flowing state brings a cap evaluation (R141). -/
def judgePace (a : Arm) (s : State) : State :=
  let held := (s.ctxOf a).paceHold
  let now := paceOf (outletLoads s a) held
  if now = held then s
  else capEvalIfFlowing a (s.modCtx a (fun c => { c with paceHold := now }))

/-- Pace hold of the arm that an outlet serves is judged if the outlet's owed count is no longer the one it
had in `before` (R141). -/
def judgeOutlet (c : Channel) (before : InjRun) (s : State) (outlet : Bool) : State :=
  match InjRec.outletArm (s.injRec c) outlet with
  | some a =>
    if InjRun.owed (s.injRun c) outlet = InjRun.owed before outlet then s else judgePace a s
  | none => s

/-! ## Line states -/

/-- Change the line of an arm that is bound to a channel; an arm has at most one (R132). -/
def modLine (a : Arm) (ch : Channel) (f : LineState → LineState) (s : State) : State :=
  s.modCtx a (fun c =>
    { c with lines := c.lines.map (fun l => if l.channel = ch then f l else l) })

/-! ## Strokes due (R133, R134) -/

/-- due = floor((T + floor(Vs / 2)) / Vs). -/
def strokesDue (total vs : Nat) : Nat := (total + vs / 2) / vs

/-- The k strokes a line gains are placed (R134). `p` is the arm's state when the sample was taken; an
arm that the same sample has meanwhile taken out of CLOSING is given no owed stroke (R143, log 6). A
channel that can take none drops them (log 20). The channel serves (R135) before pace hold is judged
(R141): the spec leaves that order open (DESIGN CHOICE, log 6). -/
def placeStrokes (a : Arm) (p : ArmPhase) (l : LineState) (k : Nat) (s : State) : State :=
  let r := s.injRun l.channel
  if isMoving p && isMoving (s.phase a) && decide (r.state = .available ∨ r.state = .stroking) then
    let n := InjRun.owed r l.outlet + k
    let s1 := s.setInjRun l.channel (InjRun.setOwed r l.outlet (min n Config.owedCap))
    let s2 :=
      if Config.owedCap < n then
        raiseAlert .additiveOverrun (.arm a)
          (modLine a l.channel (fun l => { l with dropped := l.dropped + (n - Config.owedCap) }) s1)
      else s1
    judgePace a (serveChannel l.channel s2)
  else modLine a l.channel (fun l => { l with dropped := l.dropped + k }) s

/-- The due count of one line is worked out afresh (R133). -/
def lineDue (a : Arm) (p : ArmPhase) (s : State) (l : LineState) : State :=
  let due := strokesDue (ArmCtx.total (s.ctxOf a)) l.vs
  if l.due < due then
    placeStrokes a p l (due - l.due) (modLine a l.channel (fun l => { l with due := due }) s)
  else s

/-- The due count of every line of the arm is worked out (R133), line by line in line order, each placed
before the next is worked out: R133 gives the lines no order (DESIGN CHOICE, log 6). -/
def strokesFall (a : Arm) (p : ArmPhase) (s : State) : State :=
  (s.ctxOf a).lines.foldl (lineDue a p) s

/-! ## An arm leaving CLOSING or returning to IDLE (R143, R144) -/

/-- The channel's stroke in flight serves this outlet, charged OWED. -/
def rechargeOwed (outlet : Bool) (r : InjRun) : InjRun :=
  match r.inFlight with
  | some k =>
    if k.outlet = outlet ∧ k.charge = .owed then
      { r with inFlight := some { k with charge := .dropped } } else r
  | none => r

/-- One line of an arm leaving CLOSING (R143): the stroke in flight is held over, the owed strokes
are dropped, and the stroke-ready mark stays only if the other outlet still owes strokes. -/
def shedLine (a : Arm) (s : State) (l : LineState) : State :=
  let r := s.injRun l.channel
  if r.state = .isolated then s
  else
    let n := InjRun.owed r l.outlet
    let r1 := InjRun.setOwed (rechargeOwed l.outlet r) l.outlet 0
    let r2 := if InjRun.owed r1 (!l.outlet) = 0 then { r1 with strokeReady := none } else r1
    modLine a l.channel (fun l => { l with dropped := l.dropped + n }) (s.setInjRun l.channel r2)

/-- The Injector Scheduler's act at an arm's exit from CLOSING (R143). -/
def shedStrokes (a : Arm) (s : State) : State :=
  judgePace a ((s.ctxOf a).lines.foldl (shedLine a) s)

/-- A stroke in flight for an outlet of an arm that returns to IDLE counts in no line (R144). -/
def uncountStroke (a : Arm) (s : State) (c : Channel) : State :=
  let r := s.injRun c
  match r.inFlight with
  | some k =>
    if InjRec.outletArm (s.injRec c) k.outlet = some a ∧ k.charge = .dropped then
      s.setInjRun c { r with inFlight := some { k with charge := .uncounted } }
    else s
  | none => s

end Sys2Proof.Machine
end

