-- ==== Sys2Proof/Machine/Closing.lean ====
section
/-! DEFINITION. Shared operations of the Arm Sequencer: share release, batch records, closing (R79 to R83), arm faults (R85), lane stops (R147). -/

namespace Sys2Proof.Machine

/-! ## Requests and releases of shares (R117, R125, R127) -/

def grantedSum (s : State) : Nat := (s.header.grants.toList.map (fun g => g.granted)).sum

/-- Free shares (R116). -/
def freeShares (s : State) : Nat :=
  match s.header.pendingCap with
  | some _ => 0
  | none => s.header.effective - grantedSum s

/-- The full need of a recipe, in whole shares (R117). -/
def fullNeed (r : Recipe) (shareSize : Nat) : Nat := ceilDiv (r.bulkFlow * r.ratio) (1000 * shareSize)

/-- S_min of a recipe (R117). -/
def minShares (r : Recipe) (shareSize : Nat) : Nat :=
  max 1 (ceilDiv (r.startFlow * r.ratio) (1000 * shareSize))

/-- S_req of one arm is figured anew, if it is in WAITING, a flowing state or CLOSING (R117). -/
def refigureArm (s : State) (a : Arm) : State :=
  if isMoving (s.phase a) || decide (s.phase a = .waiting) then
    let g := s.grantOf a
    let need := fullNeed (ArmCtx.recipe (s.ctxOf a)) s.header.record.shareSize
    s.setGrant a { g with sReq := max (min need s.header.effective) g.granted }
  else s

/-- A capacity takes effect (R126, R127). -/
def setEffective (v : Nat) (s : State) : State :=
  allArms.foldl refigureArm { s with header := { s.header with effective := v, pendingCap := none } }

/-- After a release: a pending capacity takes effect when the granted sum has fallen to it (R127), and
a serving pass is called for (R119). -/
def afterRelease (s : State) : State :=
  callPass
    (match s.header.pendingCap with
     | some v => if grantedSum s ≤ v then setEffective v s else s
     | none => s)

/-- All the arm's shares are released (R125). An arm that holds none makes the same release of 0 shares,
which calls for a pass: the spec does not say whether that is a release (DESIGN CHOICE, log 29). -/
def releaseShares (a : Arm) (s : State) : State :=
  let g := s.grantOf a
  afterRelease (s.setGrant a { g with granted := 0, order := none, yieldPending := false })

/-! ## Silence timers (R66) -/

def startSilence (a : Arm) (s : State) : State :=
  (boundSlots s a).foldl (fun t i =>
    if (t.meterRec i).valid then
      t.setMeterRun i { t.meterRun i with timer := some (t.meterRec i).silence }
    else t) s

def stopSilence (a : Arm) (s : State) : State :=
  (boundSlots s a).foldl (fun t i => t.setMeterRun i { t.meterRun i with timer := none }) s

/-! ## Batch records (R91, R92) -/

/-- A mandatory line has strokes due minus delivered above 1 (R92). -/
def isShort (c : ArmCtx) : Bool :=
  (c.lines.zip (ArmCtx.recipe c).lines).any
    (fun (l, r) => RecipeLine.isMandatory r && decide (l.delivered + 1 < l.due))

def recordLines (c : ArmCtx) : List RecordLine :=
  (c.lines.zip (ArmCtx.recipe c).lines).map
    (fun (l, r) => { code := r.code, due := l.due, delivered := l.delivered })

/-- The batch record of a context as it stands (R91, R92). -/
def recordOf (a : Arm) (c : ArmCtx) (b : Batch) (why : EndReason) (now : Nat) : BatchRecord :=
  { id := b.id, arm := a, recipeNo := b.recipeNo, reason := why, additiveShort := isShort c,
    flowAfterClose := c.flowAfterClose, deviationSeen := c.deviationSeen, preset := b.preset,
    g := c.g, e := c.e, maxDev := c.maxDev, startTime := c.startTime, endTime := now,
    lines := recordLines c }

/-- The arm enters DONE and its record is written into its reserved slot (R91). -/
def enterDone (a : Arm) (why : EndReason) (s : State) : State :=
  let c := s.ctxOf a
  let t := s.setCtx a { c with state := .done, reservedSlot := false }
  match c.batch with
  | some b =>
    { t with rep := { t.rep with
        records := t.rep.records ++ [recordOf a c b why s.mgmt.seconds]
        reserved := t.rep.reserved - 1 } }
  | none => t

/-! ## Leaving CLOSING (R83) and judging a close (R81) -/

def setPhase (a : Arm) (p : ArmPhase) (s : State) : State := s.modCtx a (fun c => { c with state := p })

/-- What every exit from CLOSING does before the arm takes its new state (R83). The arm still counts as
in CLOSING when its release lets a pending capacity take effect, so its S_req is figured anew with the
others: the spec joins exit and release in one act and leaves this open (R117, R127; DESIGN CHOICE,
log 27). -/
def leaveClosing (a : Arm) (s : State) : State :=
  stopSilence a (releaseShares a (shedStrokes a
    ((s.modCtx a (fun c => { c with closeReason := none })).setClose a .cleared)))

/-- The exit of a completed close, by the reason it holds (R83). -/
def completeClose (a : Arm) (s : State) : State :=
  match (s.ctxOf a).closeReason with
  | some .theEnd => enterDone a .complete (leaveClosing a s)
  | some .stop => enterDone a .stopped (leaveClosing a s)
  | some .pause => setPhase a .paused (leaveClosing a s)
  | some .fault => setPhase a .halted (leaveClosing a s)
  | none => s

/-- The close of an arm in CLOSING is judged (R81). -/
def judgeClose (a : Arm) (s : State) : State :=
  if decide (s.phase a = .closing) && valveCondition s a && metersSettled s a then completeClose a s
  else s

/-- When the valve condition does not hold every settled flag is cleared (R81). -/
def recheckSettled (a : Arm) (s : State) : State :=
  if valveCondition s a then s
  else s.setClose a { s.closeOf a with gasSettled := false, ethSettled := false }

/-! ## Entering CLOSING (R79) -/

/-- The arm leaves the wait queue and its wait timer stops (R118, R128). -/
def dequeue (a : Arm) (s : State) : State :=
  { s with header := { s.header with
      queue := s.header.queue.filter (fun b => decide (b ≠ a))
      waitTimers := put s.header.waitTimers a { sel s.header.waitTimers a with timer := none } } }

/-- The arm leaves the wait queue other than by a grant, which calls for a pass (R119). -/
def leaveQueue (a : Arm) (s : State) : State := callPass (dequeue a s)

/-- A yield pending for the arm is cancelled and its watch cleared (R79, R111, R124). -/
def cancelYield (a : Arm) (s : State) : State :=
  (s.setGrant a { s.grantOf a with yieldPending := false }).setWatch a false

/-- The arm is set to CLOSING with a reason, its close limit timer started and its settle record
cleared (R79). -/
def beginClose (a : Arm) (why : CloseReason) (s : State) : State :=
  (s.modCtx a (fun c => { c with state := .closing, closeReason := some why })).setClose a
    { timer := some s.mgmt.settings.closeLimit, gasSettled := false, ethSettled := false }

/-- The arm enters CLOSING from a flowing state or from WAITING (R79), and judges its close at once. -/
def enterClosing (a : Arm) (why : CloseReason) (s : State) : State :=
  let s1 :=
    if s.phase a = .waiting then startSilence a (leaveQueue a s) else s
  judgeClose a (restEval a (cancelYield a (beginClose a why s1)))

/-! ## Faults (R84, R85) -/

/-- The fault code is set only if it is absent (R85). -/
def setFaultCode (a : Arm) (k : AlertKind) (s : State) : State :=
  s.modCtx a (fun c => { c with faultCode := some (c.faultCode.getD k) })

/-- What a fault does to the arm beside its alert (R85, R80). -/
def faultEffect (a : Arm) (k : AlertKind) (s : State) : State :=
  match s.phase a with
  | .idle | .ready | .done | .halted => s
  | .waiting | .starting | .filling | .topping => enterClosing a .fault (setFaultCode a k s)
  | .closing =>
    if (s.ctxOf a).closeReason = some .fault then s
    else (setFaultCode a k s).modCtx a (fun c => { c with closeReason := some .fault })
  | .paused => setPhase a .halted (setFaultCode a k s)

/-- A fault reaches an arm: its alert is raised, and the arm takes it by its state (R84, R85). -/
def faultArm (a : Arm) (k : AlertKind) (s : State) : State :=
  faultEffect a k (raiseAlert k (.arm a) s)

/-! ## Lane stops (R147) -/

/-- The valve stations bound to the arms of a set, in ascending address (R147). -/
def stopStations (s : State) (arms : Byte) : List (Byte × NodeEntry) :=
  (validNodes s).filter (fun (_, e) => (streamOfValve e.role).isSome && inSet arms e.arm)

/-- A tracking set without some stations; none when no member is left (R147, R149). -/
def withoutMembers (gone : List Byte) (t : TrackSet) : Option TrackSet :=
  let m := t.members.filter (fun n => !gone.contains n)
  if m.isEmpty then none else some { t with members := m }

/-- The stations leave any tracking set they belong to. -/
def untrack (gone : List Byte) (s : State) : State :=
  { s with stop := { s.stop with tracking := s.stop.tracking.filterMap (withoutMembers gone) } }

/-- Steps 1 to 3 of a lane stop's start (R147). The faults of its trigger follow apart. -/
def laneStop (arms : Byte) (s : State) : State :=
  let found := stopStations s arms
  let addrs := found.map Prod.fst
  if found.isEmpty then s
  else
    let onPort (p : DPort) : Bool := found.any (fun (_, e) => decide (e.port = p))
    let s1 := if onPort .d0 then offerBroadcast arms .d0 s else s
    let s2 := if onPort .d1 then offerBroadcast arms .d1 s1 else s1
    let s3 := untrack addrs s2
    { s3 with stop := { s3.stop with
        tracking := s3.stop.tracking ++
          [{ members := addrs, retry := 0, timer := some s3.mgmt.settings.retryInterval }] } }

/-- A fault is handed to those arms of a set that are in a flowing state or WAITING, one at a time in
ascending arm number (R89, R90, R147). -/
def faultRunning (arms : Byte) (k : AlertKind) (s : State) : State :=
  allArms.foldl (fun t a => if inSet arms a && isRunning (t.phase a) then faultArm a k t else t) s

/-- The arm set of a single arm. -/
def onlyArm (a : Arm) : Byte := 1#8 <<< a.val

end Sys2Proof.Machine
end

