-- ==== Sys2Proof/Machine/Sequencer.lean ====
section
/-! DEFINITION. Shared operations: phase checks (R74), entry to STARTING (R72), sample evaluation (R97), yields and serving passes (R117 to R127), isolation (R139). -/

namespace Sys2Proof.Machine

/-! ## Phase checks (R74, R75) -/

/-- What a phase check finds (R74): CLOSING stands for CLOSING with reason END. -/
def phaseOutcome (c : ArmCtx) : Option ArmPhase :=
  let r := ArmCtx.recipe c
  let rem := ArmCtx.remaining c
  if rem ≤ r.closeAhead then some .closing
  else if c.state = .starting ∧ r.startVolume ≤ ArmCtx.total c - c.phaseBase then
    some (if rem ≤ r.taperVolume then .topping else .filling)
  else if c.state = .filling ∧ rem ≤ r.taperVolume then some .topping
  else none

/-- A phase check of an arm in a flowing state: at most one change (R74), with its evaluation (R75,
R79). -/
def phaseCheck (a : Arm) (s : State) : State :=
  if isFlowing (s.phase a) then
    match phaseOutcome (s.ctxOf a) with
    | some .closing => enterClosing a .theEnd s
    | some p => capEval a (setPhase a p s)
    | none => s
  else s

/-! ## Entry to STARTING (R72) -/

/-- The head-fault-raised marks of the arm's slots are cleared (R68, R72). -/
def clearHeadRaised (a : Arm) (s : State) : State :=
  (boundSlots s a).foldl (fun t i =>
    if (t.meterRec i).valid then t.setMeterRun i { t.meterRun i with headRaised := false } else t) s

/-- ADDITIVE_LOST at entry to STARTING (R140). -/
def checkAdditives (a : Arm) (s : State) : State :=
  if mandatoryIsolated s a then faultArm a .additiveLost s else s

/-- The arm enters STARTING (R72): timers, marks, cap evaluation, the additive check of R140, and the
phase check (order: log 6). -/
def enterStarting (a : Arm) (s : State) : State :=
  phaseCheck a (checkAdditives a (capEval a (setPhase a .starting
    (clearHeadRaised a (startSilence a s)))))

/-! ## Sample evaluation (R97, R101) -/

/-- A sample evaluation: trim, deviation check, F and the demands; BLEND_DEVIATION instead of handing
the demands on when the run count reaches the deviation count (R101). -/
def sampleEval (a : Arm) (s : State) : State :=
  let c1 := withDemands (sampleUpdate (s.ctxOf a)) (shareCap (s.grantOf a)) s.header.record.shareSize
  let s1 := s.setCtx a c1
  if deviationFault c1 then faultArm a .blendDeviation s1 else handDemands a s1

/-- The evaluation a volume handed on brings: a sample evaluation in a flowing state, a rest evaluation
in CLOSING, PAUSED or HALTED (R97). -/
def evalForSample (a : Arm) (s : State) : State :=
  if isFlowing (s.phase a) then sampleEval a s
  else if takesVolume (s.phase a) then restEval a s
  else s

/-- The phase check and the evaluation of a sample. Either may be taken first (R75), but a sample whose
phase check takes the arm into CLOSING has its phase check first (R97). -/
def evalAndPhase (phaseFirst : Bool) (a : Arm) (s : State) : State :=
  if phaseFirst || decide (phaseOutcome (s.ctxOf a) = some .closing) then
    evalForSample a (phaseCheck a s)
  else phaseCheck a (evalForSample a s)

/-! ## Yields (R111, R123, R124) -/

/-- A yield request to an arm (R124): the share cap falls to S_min, the arm takes a cap evaluation, and
the answer is given at once or the yield watch is set (R111). -/
def askYield (a : Arm) (s : State) : State :=
  let s1 := capEval a (s.setGrant a { s.grantOf a with yieldPending := true })
  let c := s1.chan a .ethanol
  if c.inFlight.isNone && c.latched.isNone && c.pendingSlot.isNone then
    { s1 with header := { s1.header with yieldAnswers := s1.header.yieldAnswers ++ [a] } }
  else s1.setWatch a true

/-- What an arm holds above its minimum (R123). -/
def excess (s : State) (a : Arm) : Nat := (s.grantOf a).granted - (s.grantOf a).sMin

/-- A candidate for a yield request (R123, R126). -/
def isCandidate (s : State) (a : Arm) : Bool :=
  isFlowing (s.phase a) && decide ((s.armRec a).policy = .yield) &&
    decide ((s.grantOf a).sMin < (s.grantOf a).granted) && !(s.grantOf a).yieldPending

/-- The sum of the excess of the arms with a yield pending (R123). -/
def expectedReleases (s : State) : Nat :=
  ((allArms.filter (fun a => (s.grantOf a).yieldPending)).map (excess s)).sum

/-- Put an element in place before the first element that does not come before it. -/
def insertBy {α : Type} (before : α → α → Bool) (x : α) : List α → List α
  | [] => [x]
  | y :: ys => if before y x then y :: insertBy before x ys else x :: y :: ys

/-- Stable sort: elements that neither precede keep their order. -/
def sortBy {α : Type} (before : α → α → Bool) (xs : List α) : List α :=
  xs.foldr (insertBy before) []

/-- Candidates, the largest excess first and the lower arm number first on equal excess (R123). -/
def candidates (s : State) : List Arm :=
  sortBy (fun a b => decide (excess s b < excess s a)) (allArms.filter (isCandidate s))

/-- Ask candidates in turn until the free shares plus the expected releases reach the need (R123). -/
def askUntil (need : Nat) : List Arm → State → State
  | [], s => s
  | a :: rest, s =>
    if need ≤ freeShares s + expectedReleases s then s else askUntil need rest (askYield a s)

/-- The yield requests for a head that cannot be served (R123). -/
def yieldsFor (h : Arm) (s : State) : State :=
  if (s.grantOf h).sMin ≤ s.header.effective then askUntil (s.grantOf h).sMin (candidates s) s else s

/-! ## Serving passes (R120, R121) -/

/-- A grant to the head of the queue (R120 step 2). -/
def grantHead (h : Arm) (s : State) : State :=
  let g := s.grantOf h
  let n := bump Config.max32 s.header.grantCounter
  let s1 := (dequeue h s).setGrant h { g with granted := min (freeShares s) g.sReq, order := some n }
  enterStarting h { s1 with header := { s1.header with grantCounter := n } }

/-- The spacing timer starts when the start spacing is above 0 (R122). -/
def startSpacing (s : State) : State :=
  if s.header.record.spacing = 0 then s
  else { s with header := { s.header with spacing := some s.header.record.spacing } }

/-- Arms to top up: flowing, below S_req, no yield pending; the oldest grant first (R121). Arms of the same grant
order, which a saturated grant counter can give (log 16), come in ascending arm number: R121 has no rule for a
tie (DESIGN CHOICE, log 36). -/
def topUpOrder (s : State) : List Arm :=
  sortBy (fun a b => decide (((s.grantOf a).order.getD 0) < ((s.grantOf b).order.getD 0)))
    (allArms.filter (fun a => isFlowing (s.phase a) &&
      decide ((s.grantOf a).granted < (s.grantOf a).sReq) && !(s.grantOf a).yieldPending))

/-- One arm is topped up from the free shares (R121). -/
def topUp (s : State) (a : Arm) : State :=
  let g := s.grantOf a
  let n := min (freeShares s) (g.sReq - g.granted)
  if n = 0 then s else capEval a (s.setGrant a { g with granted := g.granted + n })

/-- The queue is served from its head; `fuel` bounds the grants, of which each shortens the queue. -/
def serveQueue : Nat → State → State
  | 0, s => s
  | fuel + 1, s =>
    match s.header.queue with
    | [] => (topUpOrder s).foldl topUp s
    | h :: _ =>
      if (s.grantOf h).sMin ≤ freeShares s then
        let s1 := grantHead h (startSpacing s)
        if s.header.record.spacing = 0 then serveQueue fuel s1 else s1
      else yieldsFor h s

/-- A serving pass (R120, R121): with a pending capacity it makes no grant, no top-up and no request. -/
def makePass (s : State) : State :=
  let t := { s with header := { s.header with passCalled := false } }
  match t.header.pendingCap with
  | some _ => t
  | none => serveQueue (t.header.queue.length + 1) t

/-! ## Joining the queue (R117, R118, R128) -/

/-- The place of an arm under the PRIORITY policy: behind every arm of higher or equal priority. -/
def insertPriority (prio : Arm → Nat) (a : Arm) : List Arm → List Arm
  | [] => [a]
  | b :: bs => if prio a ≤ prio b then b :: insertPriority prio a bs else a :: b :: bs

/-- The arm enters WAITING: request, queue and wait timer in one act (R117, R118, R128). -/
def enterWaiting (a : Arm) (s : State) : State :=
  let r := ArmCtx.recipe (s.ctxOf a)
  let size := s.header.record.shareSize
  let q := match s.header.record.policy with
    | .arrival => s.header.queue ++ [a]
    | .priority => insertPriority (fun b => (s.armRec b).priority) a s.header.queue
  let s1 := (setPhase a .waiting s).setGrant a
    { sReq := min (fullNeed r size) s.header.effective, sMin := minShares r size, granted := 0,
      yieldPending := false, order := none }
  let s2 := s1.setWaitTimer a { timer := some s.header.record.waitLimit, raised := false }
  callPass { s2 with header := { s2.header with queue := q } }

/-- The arm goes to WAITING, or straight to STARTING when R = 0 (R71, R77). -/
def beginFlow (a : Arm) (s : State) : State :=
  if ratioOf s a = 0 then enterStarting a s else enterWaiting a s

/-! ## Capacity change (R126) -/

def changeCapacity (v : Nat) (s : State) : State :=
  if grantedSum s ≤ v then callPass (setEffective v s)
  else
    let t := { s with header := { s.header with pendingCap := some v } }
    (allArms.filter (isCandidate t)).foldl (fun t a => askYield a t) t

/-! ## The arm's return to IDLE (R48, R96, R117, R144) -/

/-- The context values of IDLE, the grant record 0 throughout and the yield watch clear. -/
def toIdle (a : Arm) (s : State) : State :=
  ((s.setCtx a .idle).setGrant a .zero).setWatch a false

/-- The strokes of an arm that returns to IDLE by RELEASE or at RESTART (R144). -/
def uncountStrokes (a : Arm) (s : State) : State := allChannels.foldl (uncountStroke a) s

/-! ## Isolation (R139, R140) -/

/-- The owed strokes of one outlet move into the dropped count of the line it serves (R139). -/
def dropOwed (c : Channel) (s : State) (outlet : Bool) : State :=
  let r := s.injRun c
  let n := InjRun.owed r outlet
  let t := s.setInjRun c (InjRun.setOwed r outlet 0)
  match InjRec.outletArm (s.injRec c) outlet with
  | some a => modLine a c (fun l => { l with dropped := l.dropped + n }) t
  | none => t

/-- The arm has a mandatory line bound to the channel. -/
def hasMandatoryOn (s : State) (a : Arm) (c : Channel) : Bool :=
  let x := s.ctxOf a
  (x.lines.zip (ArmCtx.recipe x).lines).any
    (fun (l, r) => RecipeLine.isMandatory r && decide (l.channel = c))

/-- The channel enters ISOLATED with all that belongs to the act (R139): the alert of the channel, then
ADDITIVE_LOST in ascending arm number (R139). Pace hold is judged afresh last, of the arm of each outlet
whose owed count has moved into dropped (R141), outlet 0's arm before outlet 1's: R139 gives pace hold no place (DESIGN CHOICE, log 6). -/
def isolate (c : Channel) (s : State) : State :=
  let s1 := s.setInjRun c { s.injRun c with state := .isolated, strokeReady := none }
  let s2 := raiseAlert .injectorNoFlow (.channel c) ([false, true].foldl (dropOwed c) s1)
  let s3 := allArms.foldl (fun t a =>
    if isActive (t.phase a) && hasMandatoryOn t a c then faultArm a .additiveLost t else t) s2
  [false, true].foldl (judgeOutlet c (s.injRun c)) s3

end Sys2Proof.Machine
end

