-- ==== Sys2Proof/Machine/Link.lean ====
section
/-! DEFINITION. Link Port Unit: RECEIVE_UNIT, BAD_REQUEST_ANSWER, TRANSMISSION_START, FRAME_DEPARTURE. -/

namespace Sys2Proof.Machine

/-! ## The receive framer (R1) -/

def feed : Framer → Byte → Framer
  | .waiting, b => if b = 0x7E#8 then .collecting [] false else .waiting
  | .collecting os grown, b =>
    if os.length < Config.maxUnit then .collecting (os ++ [b]) grown else .collecting os true

def feedAll (f : Framer) (os : List Byte) : Framer := os.foldl feed f

def framerOf (s : State) : Port → Framer
  | .u => s.portU.framer
  | .d0 => s.d0.framer
  | .d1 => s.d1.framer

def setFramer (p : Port) (f : Framer) (s : State) : State :=
  match p with
  | .u => { s with portU := { s.portU with framer := f } }
  | .d0 => { s with d0 := { s.d0 with framer := f } }
  | .d1 => { s with d1 := { s.d1 with framer := f } }

def countPort (p : Port) (i : CounterId) (s : State) : State :=
  match p with
  | .u => countU i s
  | .d0 => countD .d0 i s
  | .d1 => countD .d1 i s

/-! ## Classification of a received frame (R3, R4, R7) -/

/-- A request or relay frame of Port U is admitted with a reserved slot, or dropped (R5, R6). -/
def admitU (x : UItem) (s : State) : State :=
  if slotFree s then { s with portU := { s.portU with waiting := s.portU.waiting ++ [x] } }
  else countDropped s

/-- A received frame on Port U (R3, R4). -/
def receiveU (f : Frame) (s : State) : State :=
  if !isController f.src then countU .unknownSource s
  else if f.dst = s.mgmt.ownAddr then
    admitU (.request { src := f.src, seq := f.seq } (parseRequest f)) s
  else if f.dst = 0x00#8 || isFieldNode f.dst then admitU (.relay f) s
  else if isEngine f.dst then s
  else countU .misdirected s

/-- A received frame on a D port (R3, R7, R28). -/
def receiveD (p : DPort) (f : Frame) (s : State) : State :=
  if !isFieldNode f.src then countD p .unknownSource s
  else if f.dst = s.mgmt.ownAddr then
    s.setPortD p { s.portD p with reports := (s.portD p).reports ++ [f] }
  else if isController f.dst then offerCopy p f s
  else countD p .misdirected s

def receiveFrame (p : Port) (f : Frame) (s : State) : State :=
  match p with
  | .u => receiveU f s
  | .d0 => receiveD .d0 f s
  | .d1 => receiveD .d1 f s

/-- The unit is judged at line idle (R1, R2). -/
def judgeUnit (p : Port) (os : List Byte) (grown : Bool) (s : State) : State :=
  match checkUnit os (if grown then 64 else os.length) with
  | .ok f => receiveFrame p f s
  | .error .crcError => countPort p .crcErrors s
  | .error .formatError => countPort p .formatErrors s

/-- RECEIVE_UNIT (R1 to R7): the octets on the line up to line idle pass through the framer, and the
unit it has collected is judged. -/
def receiveUnitAct (p : Port) (os : List Byte) (s : State) : State :=
  match feedAll (framerOf s p) os with
  | .waiting => setFramer p .waiting s
  | .collecting unit grown => judgeUnit p unit grown (setFramer p .waiting s)

def execReceiveUnit (p : Port) (os : List Byte) (s : State) : Result := .next (receiveUnitAct p os s)

/-- BAD_REQUEST_ANSWER (R5, R156). -/
def execBadRequestAnswer (h : ReqHead) (kind : Byte) (s : State) : Result :=
  .next (takeU (.request h (.bad kind)) (result h kind .badRequest) s)

/-! ## Transmission (R8, R9, R11, R14) -/

def startU (s : State) : State :=
  match s.portU.sending, s.portU.queue with
  | none, f :: _ => { s with portU := { s.portU with sending := some (Frame.onLine f) } }
  | _, _ => s

/-- The frame a free D port begins with: the urgent queue before the normal queue (R11). -/
def nextSending (own : Byte) (x : PortD) : Option Sending :=
  match x.urgent, x.normal with
  | f :: _, _ => some { urgent := true, octets := Frame.onLine (stopFrame own f) }
  | [], f :: _ => some { urgent := false, octets := Frame.onLine f.frame }
  | [], [] => none

def startD (p : DPort) (s : State) : State :=
  let x := s.portD p
  match x.sending with
  | some _ => s
  | none => s.setPortD p { x with sending := nextSending s.mgmt.ownAddr x }

/-- TRANSMISSION_START (R8, R11): nothing begins on a line that is not free, or with nothing queued. -/
def execTransmissionStart (p : Port) (s : State) : Result :=
  match p with
  | .u => .next (startU s)
  | .d0 => .next (startD .d0 s)
  | .d1 => .next (startD .d1 s)

/-! ## Departure (R8, R13, R105, R136) -/

def departU (s : State) : State :=
  match s.portU.sending with
  | some _ => { s with portU := { s.portU with sending := none, queue := s.portU.queue.drop 1 } }
  | none => s

/-- The response timer of a departed VALVE ORDER starts, if the order is still in flight (R105). -/
def departValveOrder (a : Arm) (st : Stream) (seq : Byte) (s : State) : State :=
  let c := s.chan a st
  match c.inFlight with
  | some o =>
    if o.seq = seq ∧ o.departed = false then
      s.setChan a st { c with inFlight := some { o with
        departed := true, timer := some s.mgmt.settings.responseLimit } }
    else s
  | none => s

/-- The stroke timer of a departed STROKE ORDER starts, if its stroke is still in flight (R136). -/
def departStroke (c : Channel) (seq : Byte) (s : State) : State :=
  let r := s.injRun c
  match r.inFlight with
  | some k =>
    if k.seq = seq ∧ k.departed = false then
      s.setInjRun c { r with inFlight := some { k with
        departed := true, timer := some (s.injRec c).timeLimit } }
    else s
  | none => s

/-- What a departed frame starts at its owner. -/
def departNormal (f : NormalFrame) (s : State) : State :=
  match f.owner with
  | .relayed => s
  | .valveOrder a st => departValveOrder a st f.frame.seq s
  | .strokeOrder c => departStroke c f.frame.seq s

def departD (p : DPort) (s : State) : State :=
  let x := s.portD p
  match x.sending with
  | none => s
  | some t =>
    if t.urgent then s.setPortD p { x with sending := none, urgent := x.urgent.drop 1 }
    else
      let s1 := s.setPortD p { x with sending := none, normal := x.normal.drop 1 }
      match x.normal with
      | f :: _ => offerSlot p (departNormal f s1)
      | [] => s1

/-- FRAME_DEPARTURE (R8, R13): with no frame in transmission nothing departs. -/
def execFrameDeparture (p : Port) (s : State) : Result :=
  match p with
  | .u => .next (departU s)
  | .d0 => .next (departD .d0 s)
  | .d1 => .next (departD .d1 s)

end Sys2Proof.Machine
end

