-- ==== Sys2Proof/Machine/Relay.lean ====
section
/-! DEFINITION. Relay Unit: RELAY_FRAME (R29 to R34) and FIELD_REPORT (R24 to R27). -/

namespace Sys2Proof.Machine

/-! ## Relaying terminal frames -/

/-- A terminal stop (R29). -/
def isTerminalStop (kind : Byte) : Bool := kind = kindStopOrder || kind = kindStopBroadcast

/-- A kind the ownership check judges (R30). -/
def isOrderKind (kind : Byte) : Bool := kind = kindValveOrder || kind = kindStrokeOrder

/-- The ownership check refuses the frame (R30). -/
def ownershipRefuses (s : State) (f : Frame) : Bool :=
  isOrderKind f.kind &&
    (if f.dst = 0x00#8 then anyBoundToActive s else boundToActive s f.dst)

/-- The kind class of a kind, as its bit of the kind set; a terminal stop has none (R32). -/
def kindClass (kind : Byte) : Option Nat :=
  match kind.toNat with
  | 0x10 => some 0
  | 0x11 => some 1
  | 0x12 => some 2
  | 0x13 => some 3
  | 0x20 => some 4
  | 0x21 => some 5
  | 0x22 => none
  | 0x23 => none
  | n => if 0x40 ≤ n ∧ n ≤ 0x7F then some 6 else some 7

/-- A filter matches a frame (R33). -/
def filterMatches (x : Filter) (f : Frame) : Bool :=
  x.enabled && decide (f.dst &&& x.mask = x.address &&& x.mask) &&
    (match kindClass f.kind with
     | some i => x.kinds.getLsbD i
     | none => false)

/-- The frame's destination is bound to no active arm (R33, RELAY_WHEN_IDLE). -/
def destinationIdle (s : State) (f : Frame) : Bool :=
  if f.dst = 0x00#8 then !anyBoundToActive s else !boundToActive s f.dst

/-- The Relay Filters refuse the frame: the lowest-numbered matching filter decides (R33). -/
def filtersRefuse (s : State) (f : Frame) : Bool :=
  match s.relay.filters.toList.find? (fun x => filterMatches x f) with
  | none => false
  | some x =>
    match x.action with
    | .relay => false
    | .block => true
    | .relayWhenIdle => !destinationIdle s f

/-- The frame is routed (R34), or refused BUSY. -/
def routeFrame (f : Frame) (s : State) : State :=
  let x : NormalFrame := { frame := f, owner := .relayed }
  let e := nodeAt s f.dst
  if e.valid then
    if normalRoom s e.port then joinNormal e.port x s
    else result { src := f.src, seq := f.seq } f.kind .busy s
  else if normalRoom s .d0 && normalRoom s .d1 then joinNormal .d1 x (joinNormal .d0 x s)
  else result { src := f.src, seq := f.seq } f.kind .busy s

/-- The judgment of a relay frame (R29). -/
def relayAct (f : Frame) (s : State) : State :=
  if isTerminalStop f.kind then routeFrame f s
  else if ownershipRefuses s f || filtersRefuse s f then
    result { src := f.src, seq := f.seq } f.kind .blocked s
  else routeFrame f s

/-- RELAY_FRAME (R6, R29). -/
def execRelayFrame (f : Frame) (s : State) : Result := .next (takeU (.relay f) (relayAct f) s)

/-! ## Relayed orders are withdrawn at AUTHORIZE (R31) -/

/-- A waiting relayed frame that reaches a node bound to the arm. -/
def withdrawnBy (s : State) (a : Arm) (x : NormalFrame) : Bool :=
  decide (x.owner = .relayed) && isOrderKind x.frame.kind &&
    (if x.frame.dst = 0x00#8 then (validNodes s).any (fun (n, _) => (nodeArms s n).contains a)
     else (nodeArms s x.frame.dst).contains a)

/-- The frames of one port are withdrawn, and each freed slot is offered to the port's waiters. -/
def withdrawOn (a : Arm) (p : DPort) (s : State) : State :=
  let x := s.portD p
  let parts := begunPart (normalBegun x) x.normal
  let kept := parts.2.filter (fun f => !withdrawnBy s a f)
  offerSlots p (parts.2.length - kept.length) (s.setPortD p { x with normal := parts.1 ++ kept })

def withdrawRelayed (a : Arm) (s : State) : State := withdrawOn a .d1 (withdrawOn a .d0 s)

/-! ## Field reports -/

/-- The report kind and payload length that fit a role (R25). -/
def fitsRole (r : Role) (f : Frame) : Bool :=
  match r with
  | .meterGasoline | .meterEthanol => f.kind = kindMeterSample && f.payload.length = 6
  | .valveGasoline | .valveEthanol => f.kind = kindValveReport && f.payload.length = 4
  | .injector => f.kind = kindStrokeReport && f.payload.length = 2
  | .permit => f.kind = kindPermitReport && f.payload.length = 1
  | .passive => false

/-- The fields of a METER SAMPLE (R170) with its binding (R26). -/
def sampleOf (e : NodeEntry) (st : Stream) (f : Frame) : Sample :=
  { slot := e.slot, arm := e.arm, stream := st, seq := f.seq, count := u24 f.payload 0,
    interval := u16 f.payload 3, fault := (octet f.payload 5).getLsbD 0 }

/-- The fields of a VALVE REPORT (R170) with its binding (R26). -/
def valveRptOf (e : NodeEntry) (st : Stream) (f : Frame) : ValveRpt :=
  { arm := e.arm, stream := st, station := f.src, ackSeq := octet f.payload 0,
    flow := u16 f.payload 1, closed := (octet f.payload 3).getLsbD 0,
    fault := (octet f.payload 3).getLsbD 1 }

/-- The fields of a STROKE REPORT (R170) with its binding (R26). -/
def strokeRptOf (e : NodeEntry) (f : Frame) : StrokeRpt :=
  { channel := e.channel, source := f.src, seq := octet f.payload 0,
    confirmed := octet f.payload 1 = 0x01#8 }

def handSample (x : Sample) (s : State) : State :=
  { s with meter := { s.meter with samples := s.meter.samples ++ [x] } }

/-- A VALVE REPORT is handed to both its recipients (R26). -/
def handValveRpt (x : ValveRpt) (s : State) : State :=
  { s with reg := { s.reg with reports := s.reg.reports ++ [x] }
           stop := { s.stop with reports := s.stop.reports ++ [x] } }

def handStrokeRpt (x : StrokeRpt) (s : State) : State :=
  { s with inj := { s.inj with reports := s.inj.reports ++ [x] } }

def handPermitRpt (x : Byte) (s : State) : State :=
  { s with arms := { s.arms with permitReports := s.arms.permitReports ++ [x] } }

/-- A report that fits its role is handed to its owner (R26). -/
def dispatchReport (e : NodeEntry) (f : Frame) (s : State) : State :=
  match e.role with
  | .meterGasoline => handSample (sampleOf e .gasoline f) s
  | .meterEthanol => handSample (sampleOf e .ethanol f) s
  | .valveGasoline => handValveRpt (valveRptOf e .gasoline f) s
  | .valveEthanol => handValveRpt (valveRptOf e .ethanol f) s
  | .injector => handStrokeRpt (strokeRptOf e f) s
  | .permit => handPermitRpt (octet f.payload 0) s
  | .passive => s

/-- The copy-up of a report (R14, R27). -/
def copyUpOf (s : State) (f : Frame) : Frame :=
  Frame.sealed { f with dst := s.mgmt.settings.controller }

/-- The Relay Unit takes a report (R24 to R27). -/
def reportAct (p : DPort) (f : Frame) (s : State) : State :=
  let e := nodeAt s f.src
  if !e.valid then
    let t := countD p .unknownSource s
    if s.mgmt.settings.passUnknown then offerCopy p (copyUpOf s f) t else t
  else if fitsRole e.role f then
    dispatchReport e f (if e.copyUp then offerCopy p (copyUpOf s f) s else s)
  else countD p .misdirected s

/-- FIELD_REPORT (R24): the reports of one port are taken in the order the port received them. -/
def execFieldReport (p : DPort) (f : Frame) (s : State) : Result :=
  let x := s.portD p
  let r := takeFrom (fun _ => true) x.reports f
  let t := s.setPortD p { x with reports := r.1 }
  .next (if r.2 then reportAct p f t else t)

end Sys2Proof.Machine
end

