-- ==== Sys2Proof/Machine/Records.lean ====
section
/-! DEFINITION. Table records: the range checks that turn a record as transferred into a stored one, and the octets of a stored record (section 11.6). -/

namespace Sys2Proof.Machine

/-- A yes or no octet: no for 0x00, yes for 0x01, any other value out of range (R170). -/
def yesNo (b : Byte) : Option Bool :=
  match b.toNat with
  | 0 => some false
  | 1 => some true
  | _ => none

def noYes (b : Bool) : Byte := if b then 1#8 else 0#8

/-- A value in a range, as a check. -/
def inRange (lo hi n : Nat) : Bool := decide (lo ≤ n ∧ n ≤ hi)

/-! ## NODE MAP (R18, R20) -/

def roleOf (b : Byte) : Option Role :=
  match b.toNat with
  | 0 => some .meterGasoline
  | 1 => some .meterEthanol
  | 2 => some .valveGasoline
  | 3 => some .valveEthanol
  | 4 => some .injector
  | 5 => some .permit
  | 6 => some .passive
  | _ => none

def roleCode : Role → Byte
  | .meterGasoline => 0 | .meterEthanol => 1 | .valveGasoline => 2 | .valveEthanol => 3
  | .injector => 4 | .permit => 5 | .passive => 6

def portOf (b : Byte) : Option DPort :=
  match b.toNat with
  | 0 => some .d0
  | 1 => some .d1
  | _ => none

def portCode : DPort → Byte
  | .d0 => 0
  | .d1 => 1

/-- The range check of order 2 applies to every field (R20). -/
def nodeOf (r : RawNode) : Option NodeEntry := do
  let valid ← yesNo r.valid
  let role ← roleOf r.role
  let arm ← armOf r.arm
  let slot ← slotOf r.slot
  let channel ← channelOf r.channel
  let port ← portOf r.port
  let copyUp ← yesNo r.copyUp
  return { valid, role, arm, slot, channel, port, copyUp }

def nodeOctets (e : NodeEntry) : List Byte :=
  [noYes e.valid, roleCode e.role, BitVec.ofNat 8 e.arm.val, BitVec.ofNat 8 e.slot.val,
   BitVec.ofNat 8 e.channel.val, portCode e.port, noYes e.copyUp]

/-! ## RELAY FILTER (R32) -/

def actionOf (b : Byte) : Option Action :=
  match b.toNat with
  | 0 => some .relay
  | 1 => some .block
  | 2 => some .relayWhenIdle
  | _ => none

def actionCode : Action → Byte
  | .relay => 0 | .block => 1 | .relayWhenIdle => 2

def filterOf (r : RawFilter) : Option Filter := do
  let enabled ← yesNo r.enabled
  let action ← actionOf r.action
  return { enabled, address := r.address, mask := r.mask, kinds := r.kinds, action }

def filterOctets (x : Filter) : List Byte :=
  [noYes x.enabled, x.address, x.mask, x.kinds, actionCode x.action]

/-! ## METER (R51, R52) -/

/-- The bands within the band count; slots beyond it are not examined (section 11.6). -/
def bandsOf (r : RawMeter) : List Band :=
  (r.bands.toList.take r.bandCount.toNat).map
    (fun b => { bound := b.bound.toNat, factor := b.factor.toNat })

/-- Each band's bound is above the bound of the band before it (R52). -/
def ascending : List Band → Bool
  | a :: b :: rest => decide (a.bound < b.bound) && ascending (b :: rest)
  | _ => true

/-- Every field lies in its range of R51. -/
def meterInRange (r : MeterRec) : Bool :=
  inRange 1 9999999 r.k && decide (r.format.toNat ≤ 2) && inRange 1 5 r.bands.length &&
    r.bands.all (fun b => inRange 1 6000 b.bound && inRange 90000 110000 b.factor) &&
    ascending r.bands && inRange 1 65535 r.surge && inRange 100 10000 r.silence

/-- Order 2 of R52: a record with valid = no is judged by its band count alone (log 11). -/
def meterOf (r : RawMeter) : Option MeterRec := do
  let valid ← yesNo r.valid
  let x : MeterRec :=
    { valid, k := r.k.toNat, format := r.format, bands := bandsOf r, surge := r.surge.toNat,
      silence := r.silence.toNat }
  if r.bandCount.toNat ≤ 5 ∧ (valid = false ∨ meterInRange x) then some x else none

def bandOctets (b : Band) : List Byte := be 2 b.bound ++ be 3 b.factor

def meterOctets (x : MeterRec) : List Byte :=
  [noYes x.valid] ++ be 3 x.k ++ [x.format] ++ be 1 x.bands.length ++ be 2 x.surge ++
    be 2 x.silence ++ x.bands.flatMap bandOctets ++ List.replicate (5 * (5 - x.bands.length)) 0#8

/-! ## INJECTOR (R130, R131) -/

/-- An outlet arm: 0 to 7, or 0xFF for absent (section 11.6). -/
def outletOf (b : Byte) : Option (Option Arm) :=
  if b = 0xFF#8 then some none else (armOf b).map some

def outletCode : Option Arm → Byte
  | some a => BitVec.ofNat 8 a.val
  | none => 0xFF

def outletPolicyOf (b : Byte) : Option OutletPolicy :=
  match b.toNat with
  | 0 => some .fixed
  | 1 => some .alternate
  | _ => none

def outletPolicyCode : OutletPolicy → Byte
  | .fixed => 0
  | .alternate => 1

/-- A field in its range, or 0 where the record is written with valid = no (R131). -/
def fieldOk (valid : Bool) (lo hi n : Nat) : Bool :=
  inRange lo hi n || (!valid && decide (n = 0))

def injectorInRange (x : InjRec) : Bool :=
  fieldOk x.valid 1 0xDF x.node.toNat && fieldOk x.valid 1 255 x.code &&
    fieldOk x.valid 1 5000 x.stroke && fieldOk x.valid 2 15 x.pace &&
    fieldOk x.valid 100 5000 x.timeLimit && fieldOk x.valid 0 6000 x.check &&
    !(x.out0.isSome && decide (x.out0 = x.out1))

def injectorOf (r : RawInjector) : Option InjRec := do
  let valid ← yesNo r.valid
  let out0 ← outletOf r.out0
  let out1 ← outletOf r.out1
  let policy ← outletPolicyOf r.policy
  let x : InjRec :=
    { valid, node := r.node, code := r.code.toNat, stroke := r.stroke.toNat, out0, out1, policy,
      pace := r.pace.toNat, timeLimit := r.timeLimit.toNat, check := r.check.toNat }
  if injectorInRange x then some x else none

def injectorOctets (x : InjRec) : List Byte :=
  [noYes x.valid, x.node] ++ be 1 x.code ++ be 2 x.stroke ++
    [outletCode x.out0, outletCode x.out1, outletPolicyCode x.policy] ++ be 1 x.pace ++
    be 2 x.timeLimit ++ be 2 x.check

/-! ## RECIPE (R37 to R39) -/

/-- The lines within the line count; slots beyond it are not examined (section 11.6). -/
def linesOf (r : RawRecipe) : List RecipeLine :=
  (r.lines.toList.take r.lineCount.toNat).map
    (fun l => { code := l.code.toNat, dose := l.dose.toNat, mandatory := l.mandatory })

/-- No two lines carry the same additive code (R38). -/
def distinctCodes : List RecipeLine → Bool
  | [] => true
  | l :: ls => ls.all (fun k => decide (k.code ≠ l.code)) && distinctCodes ls

/-- The rules of R38. -/
def recipeInRange (x : Recipe) : Bool :=
  inRange 0 900 x.ratio && inRange 1 6000 x.startFlow && inRange 1 6000 x.bulkFlow &&
    inRange 1 6000 x.topFlow && inRange 0 10000000 x.startVolume &&
    inRange 1 10000000 x.taperVolume && inRange 0 9999999 x.closeAhead &&
    inRange 1 100000 x.trimBand && inRange 1 100 x.trimStep && inRange 0 1000 x.trimLimit &&
    inRange 1 100 x.devLimit && inRange 2 15 x.devCount &&
    x.lines.all (fun l => inRange 1 255 l.code && inRange 1 9999 l.dose &&
      (yesNo l.mandatory).isSome) &&
    decide (x.startFlow ≤ x.bulkFlow) && decide (x.topFlow ≤ x.bulkFlow) &&
    decide (x.closeAhead < x.taperVolume) && distinctCodes x.lines

/-- A record with valid = no is judged by its line count alone (R39, log 11). -/
def recipeOf (r : RawRecipe) : Option Recipe := do
  let valid ← yesNo r.valid
  let x : Recipe :=
    { valid, ratio := r.ratio.toNat, startFlow := r.startFlow.toNat, bulkFlow := r.bulkFlow.toNat,
      topFlow := r.topFlow.toNat, startVolume := r.startVolume.toNat,
      taperVolume := r.taperVolume.toNat, closeAhead := r.closeAhead.toNat,
      trimBand := r.trimBand.toNat, trimStep := r.trimStep.toNat, trimLimit := r.trimLimit.toNat,
      devLimit := r.devLimit.toNat, devCount := r.devCount.toNat, lines := linesOf r }
  if r.lineCount.toNat ≤ 4 ∧ (valid = false ∨ recipeInRange x) then some x else none

def lineOctets (l : RecipeLine) : List Byte := be 1 l.code ++ be 2 l.dose ++ [l.mandatory]

def recipeOctets (x : Recipe) : List Byte :=
  [noYes x.valid] ++ be 2 x.ratio ++ be 2 x.startFlow ++ be 2 x.bulkFlow ++ be 2 x.topFlow ++
    be 4 x.startVolume ++ be 4 x.taperVolume ++ be 4 x.closeAhead ++ be 3 x.trimBand ++
    be 1 x.trimStep ++ be 2 x.trimLimit ++ be 1 x.devLimit ++ be 1 x.devCount ++
    be 1 x.lines.length ++ x.lines.flatMap lineOctets ++
    List.replicate (4 * (4 - x.lines.length)) 0#8

/-! ## ARM (R35, R36) -/

def headerPolicyOf (b : Byte) : Option HeaderPolicy :=
  match b.toNat with
  | 0 => some .hold
  | 1 => some .yield
  | _ => none

def headerPolicyCode : HeaderPolicy → Byte
  | .hold => 0
  | .yield => 1

def armRecOf (r : RawArm) : Option ArmRec := do
  let enabled ← yesNo r.enabled
  let permitRequired ← yesNo r.permit
  let policy ← headerPolicyOf r.policy
  if r.priority.toNat ≤ 3 then
    some { enabled, priority := r.priority.toNat, permitRequired, policy }
  else none

def armOctets (x : ArmRec) : List Byte :=
  [noYes x.enabled] ++ be 1 x.priority ++ [noYes x.permitRequired, headerPolicyCode x.policy]

/-! ## SETTINGS (R158) -/

def settingsInRange (x : Settings) : Bool :=
  isController x.controller && inRange 1 3 x.pinLevel && inRange 50 5000 x.responseLimit &&
    inRange 1000 60000 x.closeLimit && inRange 100 10000 x.permitLimit &&
    inRange 100 2000 x.retryInterval

def settingsOf (r : RawSettings) : Option Settings := do
  let passUnknown ← yesNo r.passUnknown
  let x : Settings :=
    { controller := r.controller, passUnknown, pinLevel := r.pinLevel.toNat,
      responseLimit := r.response.toNat, closeLimit := r.closeLimit.toNat,
      permitLimit := r.permit.toNat, retryInterval := r.retry.toNat }
  if settingsInRange x then some x else none

def settingsOctets (x : Settings) : List Byte :=
  [x.controller, noYes x.passUnknown] ++ be 1 x.pinLevel ++ be 2 x.responseLimit ++
    be 2 x.closeLimit ++ be 2 x.permitLimit ++ be 2 x.retryInterval

/-! ## HEADER (R114, R115) -/

def grantPolicyOf (b : Byte) : Option GrantPolicy :=
  match b.toNat with
  | 0 => some .priority
  | 1 => some .arrival
  | _ => none

def grantPolicyCode : GrantPolicy → Byte
  | .priority => 0
  | .arrival => 1

def headerInRange (x : HeaderRec) : Bool :=
  inRange 0 64 x.capacity && inRange 1 500 x.shareSize && inRange 1000 600000 x.waitLimit &&
    inRange 0 10000 x.spacing

def headerOf (r : RawHeader) : Option HeaderRec := do
  let policy ← grantPolicyOf r.policy
  let x : HeaderRec :=
    { capacity := r.capacity.toNat, shareSize := r.size.toNat, policy,
      waitLimit := r.waitLimit.toNat, spacing := r.spacing.toNat }
  if headerInRange x then some x else none

def headerOctets (x : HeaderRec) : List Byte :=
  be 1 x.capacity ++ be 2 x.shareSize ++ [grantPolicyCode x.policy] ++ be 3 x.waitLimit ++
    be 2 x.spacing

/-! ## Octets of absent fields (log 7) -/

/-- Octets that stand in the place of an absent field: free values, one for each octet of each answer.
`n` octets of the field that begins at offset `off` of the answer numbered `k`. -/
def freeOctets (k off n : Nat) : List Byte :=
  (List.range n).map (fun i => Config.freeOctet (64 * k + off + i))

/-- A field of n octets that may be absent, where chapter 11 gives no absent code. -/
def optional (k off n : Nat) : Option Nat → List Byte
  | some v => be n v
  | none => freeOctets k off n

end Sys2Proof.Machine
end

