-- ==== Sys2Proof/Machine/Tables.lean ====
section
/-! DEFINITION. TABLE_READ (R157) and the eight TABLE_WRITE commands (R20, R32, R36, R38, R39, R52, R115, R131, R158). -/

namespace Sys2Proof.Machine

/-- What a judged request comes to: a result code and the state it leaves. -/
abbrev Judged := Code × State

/-- The answer of a judged request joins the Port U queue (R156). -/
def answered (h : ReqHead) (kind : Byte) (j : Judged) : State := result h kind j.1 j.2

/-- A judged request is taken in its turn among the requests (R5, R156). -/
def request (h : ReqHead) (r : Request) (judge : State → Judged) (s : State) : State :=
  takeU (.request h r) (fun t => answered h (Request.kindCode r) (judge t)) s

/-- A fresh number for the free octets of one answer (log 7). -/
def useFree (s : State) : State := { s with free := s.free + 1 }

/-! ## TABLE_READ -/

/-- The METER run state as reported (section 11.6). -/
def meterRunOctets (k : Nat) (r : MeterRun) : List Byte :=
  [flagOctet [r.lastSeq.isSome, r.headFault, r.silent, r.stray]] ++
    optional k 38 1 (r.lastSeq.map (fun b => b.toNat)) ++ be 3 r.lastCount ++ be 2 r.lastFlow ++
    be 2 r.gapCount

def injPhaseCode : InjPhase → Byte
  | .unconfigured => 0 | .available => 1 | .stroking => 2 | .isolated => 3

def chargeCode : Charge → Byte
  | .owed => 0 | .dropped => 1 | .uncounted => 2

/-- The stroke-in-flight octet: bit 7 present, bit 0 outlet, bits 1 and 2 charge. -/
def strokeOctet (k : Nat) : Option StrokeFlight → Byte
  | some x => 0x80#8 ||| (chargeCode x.charge <<< 1) ||| noYes x.outlet
  | none => Config.freeOctet (64 * k + 20) &&& 0x07#8

/-- The INJECTOR run state as reported (section 11.6). -/
def injRunOctets (k : Nat) (r : InjRun) : List Byte :=
  [injPhaseCode r.state] ++ be 1 r.owed0 ++ be 1 r.owed1 ++ [noYes r.lastServed] ++
    be 1 r.missCount ++ [strokeOctet k r.inFlight] ++
    optional k 21 1 (r.inFlight.map (fun x => x.seq.toNat))

def filterIndex (b : Byte) : Option (Fin 8) := armOf b

def recipeIndex (b : Byte) : Option (Fin 32) :=
  if h : b.toNat < 32 then some ⟨b.toNat, h⟩ else none

/-- The record of a table at an index as TABLE DATA carries it, with the run state for METER and
INJECTOR; none outside the table's range (R157). -/
def tableOctets (s : State) (t : TableId) (i : Byte) : Option (List Byte) :=
  match t with
  | .nodeMap => (nodeIndex i).map (fun n => nodeOctets (sel s.relay.nodeMap n))
  | .relayFilter => (filterIndex i).map (fun n => filterOctets (sel s.relay.filters n))
  | .meter => (slotOf i).map
      (fun n => meterOctets (s.meterRec n) ++ meterRunOctets s.free (s.meterRun n))
  | .injector => (channelOf i).map
      (fun n => injectorOctets (s.injRec n) ++ injRunOctets s.free (s.injRun n))
  | .recipe => (recipeIndex i).map (fun n => recipeOctets (sel s.arms.recipes n))
  | .arm => (armOf i).map (fun n => armOctets (s.armRec n))
  | .settings => if i = 0 then some (settingsOctets s.mgmt.settings) else none
  | .header => if i = 0 then some (headerOctets s.header.record) else none

def tableReadAct (h : ReqHead) (t : TableId) (i : Byte) (s : State) : State :=
  match tableOctets s t i with
  | some os => answer h kindTableData ([tableCode t, i] ++ os) (useFree s)
  | none => result h 0x80 .badIndex s

def execTableRead (h : ReqHead) (t : TableId) (i : Byte) (s : State) : Result :=
  .next (takeU (.request h (.tableRead t i)) (tableReadAct h t i) s)

/-! ## TABLE_WRITE of the NODE MAP (R20 to R23) -/

/-- Two valid entries at different indexes that would give the same binding (R21). -/
def entriesClash (x y : NodeEntry) : Bool :=
  ((streamOfMeter x.role).isSome || (streamOfValve x.role).isSome) &&
      decide (x.role = y.role ∧ x.arm = y.arm) ||
    (streamOfMeter x.role).isSome && (streamOfMeter y.role).isSome && decide (x.slot = y.slot) ||
    decide (x.role = .injector ∧ y.role = .injector ∧ x.channel = y.channel) ||
    decide (x.role = .permit ∧ y.role = .permit)

/-- The new entry is in conflict (R21). -/
def nodeConflict (s : State) (addr : Byte) (e : NodeEntry) : Bool :=
  e.valid && (validNodes s).any (fun (n, x) => decide (n ≠ addr) && entriesClash e x)

def appliesArm (r : Role) : Bool := (streamOfMeter r).isSome || (streamOfValve r).isSome

def appliesSlot (r : Role) : Bool := (streamOfMeter r).isSome

def appliesChannel (r : Role) : Bool := decide (r = .injector)

/-- The write changes the binding of the entry (R22). -/
def changesBinding (old new : NodeEntry) : Bool :=
  decide (old.valid ≠ new.valid ∨ old.role ≠ new.role ∨ old.port ≠ new.port) ||
    (appliesArm old.role || appliesArm new.role) && decide (old.arm ≠ new.arm) ||
    (appliesSlot old.role || appliesSlot new.role) && decide (old.slot ≠ new.slot) ||
    (appliesChannel old.role || appliesChannel new.role) && decide (old.channel ≠ new.channel)

/-- The entry, if valid, involves something in use (R22). -/
def entryInUse (s : State) (addr : Byte) (e : NodeEntry) : Bool :=
  e.valid &&
    (appliesArm e.role && isActive (s.phase e.arm) ||
     appliesChannel e.role &&
       ((InjRec.arms (s.injRec e.channel)).any (fun a => isActive (s.phase a)) ||
        (s.injRun e.channel).inFlight.isSome ||
        decide (0 < (s.injRun e.channel).owed0 ∨ 0 < (s.injRun e.channel).owed1)) ||
     decide (e.role = .permit) && allArms.any (fun a => isActive (s.phase a)) ||
     (streamOfValve e.role).isSome && (isTracked s addr || isMarked s addr))

/-- A rebinding clears the run state of a slot and keeps its gap count (R23, R54). -/
def unbindSlot (i : Slot) (s : State) : State :=
  s.setMeterRun i { MeterRun.cleared with gapCount := (s.meterRun i).gapCount }

/-- The held report of a channel is cleared; a close that waited for it is judged on what is left
(R23, R81). A report of the old node that was handed over before and is taken after still becomes the
held report: R23 leaves that open (DESIGN CHOICE, log 25). -/
def clearHeld (a : Arm) (st : Stream) (s : State) : State :=
  recheckSettled a (s.setChan a st { s.chan a st with held := none })

/-- Every permit bit becomes false and the timer stops (R23, R87). A report of the old node that was
handed over before and is taken after still sets the bits: R23 leaves that open (DESIGN CHOICE,
log 25). -/
def clearPermits (s : State) : State :=
  { s with arms := { s.arms with permits := 0, permitTimer := none } }

/-- What a change of binding does to the block that reads the entry, for a valid entry (R23, log 10). -/
def rebind (e : NodeEntry) (s : State) : State :=
  if e.valid then
    match e.role with
    | .meterGasoline | .meterEthanol => unbindSlot e.slot s
    | .valveGasoline => clearHeld e.arm .gasoline s
    | .valveEthanol => clearHeld e.arm .ethanol s
    | .permit => clearPermits s
    | .injector | .passive => s
  else s

def setNode (i : Fin 223) (e : NodeEntry) (s : State) : State :=
  { s with relay := { s.relay with nodeMap := put s.relay.nodeMap i e } }

def judgeNodeWrite (index : Byte) (r : RawNode) (s : State) : Judged :=
  match nodeIndex index with
  | none => (.badIndex, s)
  | some i =>
    match nodeOf r with
    | none => (.badValue, s)
    | some e =>
      let old := sel s.relay.nodeMap i
      if nodeConflict s index e then (.conflict, s)
      else if !changesBinding old e then (.done, setNode i e s)
      else if entryInUse s index old || entryInUse s index e then (.inUse, s)
      else (.done, settleAlerts (rebind e (rebind old (setNode i e s))))

def execTableWriteNodeMap (h : ReqHead) (i : Byte) (r : RawNode) (s : State) : Result :=
  .next (request h (.writeNode i r) (judgeNodeWrite i r) s)

/-! ## TABLE_WRITE of the RELAY FILTER (R32) -/

/-- A RELAY FILTER write is judged (R32). The rule gives its two checks no order; the index is checked before the
record (DESIGN CHOICE, log 33). -/
def judgeFilterWrite (index : Byte) (r : RawFilter) (s : State) : Judged :=
  match filterIndex index with
  | none => (.badIndex, s)
  | some i =>
    match filterOf r with
    | none => (.badValue, s)
    | some x => (.done, { s with relay := { s.relay with filters := put s.relay.filters i x } })

def execTableWriteRelayFilter (h : ReqHead) (i : Byte) (r : RawFilter) (s : State) : Result :=
  .next (request h (.writeFilter i r) (judgeFilterWrite i r) s)

/-! ## TABLE_WRITE of the METER table (R52, R53) -/

/-- A valid meter entry names the slot and an active arm (R52). -/
def slotInUse (s : State) (i : Slot) : Bool :=
  (validNodes s).any (fun (_, e) =>
    (streamOfMeter e.role).isSome && decide (e.slot = i) && isActive (s.phase e.arm))

def judgeMeterWrite (index : Byte) (r : RawMeter) (s : State) : Judged :=
  match slotOf index with
  | none => (.badIndex, s)
  | some i =>
    match meterOf r with
    | none => (.badValue, s)
    | some x =>
      if slotInUse s i then (.inUse, s)
      else (.done, settleAlerts ({ s with meter := { s.meter with
        table := put s.meter.table i x, run := put s.meter.run i .cleared } }))

def execTableWriteMeter (h : ReqHead) (i : Byte) (r : RawMeter) (s : State) : Result :=
  .next (request h (.writeMeter i r) (judgeMeterWrite i r) s)

/-! ## TABLE_WRITE of the INJECTOR table (R131) -/

/-- The channel has a stroke in flight or owes strokes, or an outlet arm of the old or the new record is
active (R131). -/
def channelInUse (s : State) (c : Channel) (x : InjRec) : Bool :=
  (s.injRun c).inFlight.isSome || decide (0 < (s.injRun c).owed0 ∨ 0 < (s.injRun c).owed1) ||
    (InjRec.arms (s.injRec c) ++ InjRec.arms x).any (fun a => isActive (s.phase a))

/-- The run state an accepted write leaves (R131): the next sequence is kept. -/
def rewrittenRun (x : InjRec) (r : InjRun) : InjRun :=
  { r with state := if x.valid then .available else .unconfigured, missCount := 0,
           lastServed := true }

def judgeInjectorWrite (index : Byte) (r : RawInjector) (s : State) : Judged :=
  match channelOf index with
  | none => (.badIndex, s)
  | some c =>
    match injectorOf r with
    | none => (.badValue, s)
    | some x =>
      if channelInUse s c x then (.inUse, s)
      else (.done, settleAlerts ({ s with inj := { s.inj with
        table := put s.inj.table c x, run := put s.inj.run c (rewrittenRun x (s.injRun c)) } }))

def execTableWriteInjector (h : ReqHead) (i : Byte) (r : RawInjector) (s : State) : Result :=
  .next (request h (.writeInjector i r) (judgeInjectorWrite i r) s)

/-! ## TABLE_WRITE of the RECIPE table (R38, R39) -/

/-- A RECIPE write is judged (R38, R39). With valid = no the rule gives its two checks no order; the index is
checked before the line count (DESIGN CHOICE, log 33). -/
def judgeRecipeWrite (index : Byte) (r : RawRecipe) (s : State) : Judged :=
  match recipeIndex index with
  | none => (.badIndex, s)
  | some i =>
    match recipeOf r with
    | none => (.badValue, s)
    | some x => (.done, { s with arms := { s.arms with recipes := put s.arms.recipes i x } })

def execTableWriteRecipe (h : ReqHead) (i : Byte) (r : RawRecipe) (s : State) : Result :=
  .next (request h (.writeRecipe i r) (judgeRecipeWrite i r) s)

/-! ## TABLE_WRITE of the ARM table (R36) -/

def judgeArmWrite (index : Byte) (r : RawArm) (s : State) : Judged :=
  match armOf index with
  | none => (.badIndex, s)
  | some a =>
    match armRecOf r with
    | none => (.badValue, s)
    | some x =>
      if s.phase a = .idle then
        (.done, { s with arms := { s.arms with table := put s.arms.table a x } })
      else (.inUse, s)

def execTableWriteArm (h : ReqHead) (i : Byte) (r : RawArm) (s : State) : Result :=
  .next (request h (.writeArm i r) (judgeArmWrite i r) s)

/-! ## TABLE_WRITE of the SETTINGS (R158, R166) -/

/-- A SETTINGS write is judged (R158). The rule gives its two checks no order; the index is checked before the
record (DESIGN CHOICE, log 33). -/
def judgeSettingsWrite (index : Byte) (r : RawSettings) (s : State) : Judged :=
  if index ≠ 0 then (.badIndex, s)
  else
    match settingsOf r with
    | none => (.badValue, s)
    | some x =>
      let t := { s with mgmt := { s.mgmt with settings := x } }
      (.done, setAlerts t.rep.alerts t)

def execTableWriteSettings (h : ReqHead) (i : Byte) (r : RawSettings) (s : State) : Result :=
  .next (request h (.writeSettings i r) (judgeSettingsWrite i r) s)

/-! ## TABLE_WRITE of the HEADER (R115, R126) -/

def judgeHeaderWrite (index : Byte) (r : RawHeader) (s : State) : Judged :=
  if index ≠ 0 then (.badIndex, s)
  else
    match headerOf r with
    | none => (.badValue, s)
    | some x =>
      if s.mgmt.mode = .run ∧
          (x.shareSize ≠ s.header.record.shareSize ∨ x.policy ≠ s.header.record.policy) then
        (.wrongMode, s)
      else (.done, changeCapacity x.capacity { s with header := { s.header with record := x } })

def execTableWriteHeader (h : ReqHead) (i : Byte) (r : RawHeader) (s : State) : Result :=
  .next (request h (.writeHeader i r) (judgeHeaderWrite i r) s)

end Sys2Proof.Machine
end

