-- ==== Sys2Proof/Machine/Arms.lean ====
section
/-! DEFINITION. The arm commands: AUTHORIZE, CANCEL, START, PAUSE, RESUME, STOP, FAULT_RESET, RELEASE (R40 to R50, R70 to R93). -/

namespace Sys2Proof.Machine

/-- The checks every arm command begins with, in their order: mode, arm index, arm state (R40, R49,
R70); then the command itself. R152 has START and RESUME refused NOT_PERMITTED under an asserted ESTOP_N
'whatever the mode'; in STANDBY the check of the mode comes first and answers WRONG_MODE (R70, R159; DESIGN
CHOICE, log 35). -/
def judgeArm (index : Byte) (takes : ArmCtx → Bool) (act : Arm → State → Judged) (s : State) :
    Judged :=
  if s.mgmt.mode ≠ .run then (.wrongMode, s)
  else
    match armOf index with
    | none => (.badIndex, s)
    | some a =>
      if (s.armRec a).enabled then
        if takes (s.ctxOf a) then act a s else (.wrongState, s)
      else (.badIndex, s)

/-- A command that passes is carried out in the same act and answered DONE (R70); what has ended with
it is judged at the end of the act (R163, log 12). -/
def carried (act : State → State) (s : State) : Judged := (.done, settleAlerts (act s))

def isIn (p : ArmPhase) (c : ArmCtx) : Bool := decide (c.state = p)

/-! ## AUTHORIZE -/

/-- The arm has a meter of the stream bound to a valid slot (R41). -/
def meterReady (s : State) (a : Arm) (st : Stream) : Bool :=
  match meterSlot s a st with
  | some i => (s.meterRec i).valid
  | none => false

/-- The bindings of R41. -/
def bindingsHold (s : State) (a : Arm) (ratio : Nat) : Bool :=
  meterReady s a .gasoline && (station s a .gasoline).isSome &&
    (if 0 < ratio then meterReady s a .ethanol && (station s a .ethanol).isSome
     else (meterSlot s a .ethanol).isNone || meterReady s a .ethanol)

/-- A channel qualifies for a line of the arm (R42). -/
def qualifies (s : State) (a : Arm) (code : Nat) (c : Channel) : Bool :=
  let x := s.injRec c
  x.valid && decide ((s.injRun c).state = .available ∨ (s.injRun c).state = .stroking) &&
    (headBinding s c).isSome && decide (x.code = code) &&
    decide (x.out0 = some a ∨ x.out1 = some a)

/-- The stroke interval of a line (R43). -/
def strokeInterval (stroke dose : Nat) : Nat := Config.doseUnit * stroke / dose

/-- The line state of a line bound to a channel (R42, R43, R46). -/
def boundLine (s : State) (a : Arm) (l : RecipeLine) (c : Channel) : LineState :=
  { channel := c, outlet := decide ((s.injRec c).out0 ≠ some a),
    vs := strokeInterval (s.injRec c).stroke l.dose, due := 0, delivered := 0, dropped := 0 }

/-- A line is bound to the lowest-numbered channel that qualifies for it (R42). -/
def bindLine (s : State) (a : Arm) (l : RecipeLine) : Option LineState :=
  (allChannels.find? (qualifies s a l.code)).map (boundLine s a l)

/-- Every line is bound, or none is when some line finds no channel (R42). -/
def bindLines (s : State) (a : Arm) : List RecipeLine → Option (List LineState)
  | [] => some []
  | l :: ls =>
    match bindLine s a l, bindLines s a ls with
    | some x, some xs => some (x :: xs)
    | _, _ => none

/-- The batch id is held by an arm with a reserved slot or by a record (R44). -/
def idInUse (s : State) (id : Word32) : Bool :=
  s.arms.ctx.toList.any (fun c => c.reservedSlot && decide (c.batch.map (fun b => b.id) = some id)) ||
    s.rep.records.any (fun r => decide (r.id = id))

/-- The Record Store has room (R45). -/
def storeRoom (s : State) : Bool := decide (s.rep.records.length + s.rep.reserved < Config.storeSize)

/-- The preset is in its range and covers start and close-ahead volume (check 5 of R40). -/
def presetFits (r : Recipe) (preset : Nat) : Bool :=
  inRange 1000 10000000 preset && decide (r.startVolume + r.closeAhead ≤ preset)

/-- The context at acceptance (R46). -/
def readyCtx (b : Batch) (lines : List LineState) : ArmCtx :=
  { ArmCtx.idle with state := .ready, batch := some b, reservedSlot := true, lines := lines }

/-- The remainder of each meter slot bound to the arm becomes 0 (R47, R62). -/
def zeroRemainders (a : Arm) (s : State) : State :=
  (boundSlots s a).foldl (fun t i => t.setMeterRun i { t.meterRun i with remainder := 0 }) s

/-- What the acceptance sets up (R46, R47). -/
def openBatch (a : Arm) (b : Batch) (lines : List LineState) (s : State) : State :=
  let s1 := (zeroRemainders a (s.setCtx a (readyCtx b lines))).setGrant a .zero
  withdrawRelayed a { s1 with rep := { s1.rep with reserved := s1.rep.reserved + 1 } }

/-- Checks 5 to 10 of R40, for the recipe that check 4 has found. -/
def authorizeWith (a : Arm) (b : Batch) (s : State) : Judged :=
  let r := b.snapshot
  if !presetFits r b.preset then (.badValue, s)
  else if !bindingsHold s a r.ratio then (.bindingMissing, s)
  else
    match bindLines s a r.lines with
    | none => (.noInjector, s)
    | some lines =>
      if lines.any (fun l => decide (l.vs < Config.minInterval)) then (.badValue, s)
      else if idInUse s b.id then (.duplicateId, s)
      else if !storeRoom s then (.noRecordSpace, s)
      else carried (openBatch a b lines) s

/-- Check 4 of R40: the recipe number names a valid recipe. -/
def authorizeArm (id : Word32) (recipe : Byte) (preset : Word32) (a : Arm) (s : State) : Judged :=
  match recipeIndex recipe with
  | none => (.badValue, s)
  | some n =>
    let r := sel s.arms.recipes n
    if r.valid then
      authorizeWith a { id := id, recipeNo := n, snapshot := r, preset := preset.toNat } s
    else (.badValue, s)

def judgeAuthorize (arm : Byte) (id : Word32) (recipe : Byte) (preset : Word32) (s : State) : Judged :=
  judgeArm arm (isIn .idle) (authorizeArm id recipe preset) s

/-- AUTHORIZE (R40 to R47). -/
def execAuthorize (h : ReqHead) (arm : Byte) (id : Word32) (recipe : Byte) (preset : Word32)
    (s : State) : Result :=
  .next (request h (.authorize arm id recipe preset) (judgeAuthorize arm id recipe preset) s)

/-! ## CANCEL -/

/-- The batch is withdrawn: the arm is IDLE and its reserved slot is free (R49, R94). -/
def cancelBatch (a : Arm) (s : State) : State :=
  let t := toIdle a s
  { t with rep := { t.rep with reserved := t.rep.reserved - 1 } }

def judgeCancel (arm : Byte) (s : State) : Judged :=
  judgeArm arm (isIn .ready) (fun a => carried (cancelBatch a)) s

/-- CANCEL (R49). -/
def execCancel (h : ReqHead) (arm : Byte) (s : State) : Result :=
  .next (request h (.cancel arm) (judgeCancel arm) s)

/-! ## START and RESUME -/

/-- The three conditions that refuse START and RESUME (R71, R77). -/
def flowForbidden (s : State) (a : Arm) : Bool :=
  s.stop.estop || ((s.armRec a).permitRequired && !permitBit s a) || armTracked s a

/-- START sets the start time and the phase base (R71). -/
def startArm (a : Arm) (s : State) : State :=
  beginFlow a (s.modCtx a (fun c =>
    { c with startTime := some s.mgmt.seconds, phaseBase := ArmCtx.total c }))

def judgeStart (arm : Byte) (s : State) : Judged :=
  judgeArm arm (isIn .ready)
    (fun a t => if flowForbidden t a then (.notPermitted, t) else carried (startArm a) t) s

/-- START (R71). -/
def execStart (h : ReqHead) (arm : Byte) (s : State) : Result :=
  .next (request h (.start arm) (judgeStart arm) s)

/-- RESUME sets the phase base and puts trim and deviation run count to 0 (R77). -/
def resumeArm (a : Arm) (s : State) : State :=
  beginFlow a (s.modCtx a (fun c =>
    { c with phaseBase := ArmCtx.total c, trim := 0, devRun := 0 }))

def judgeResume (arm : Byte) (s : State) : Judged :=
  judgeArm arm (isIn .paused)
    (fun a t => if flowForbidden t a then (.notPermitted, t) else carried (resumeArm a) t) s

/-- RESUME (R77). -/
def execResume (h : ReqHead) (arm : Byte) (s : State) : Result :=
  .next (request h (.resume arm) (judgeResume arm) s)

/-! ## PAUSE and STOP -/

/-- A higher close reason replaces the one held (R80). -/
def setReason (a : Arm) (why : CloseReason) (s : State) : State :=
  s.modCtx a (fun c => { c with closeReason := some why })

/-- PAUSE is taken in WAITING, in the flowing states, and in CLOSING with reason END (R76). -/
def takesPause (c : ArmCtx) : Bool :=
  isRunning c.state || decide (c.state = .closing ∧ c.closeReason = some .theEnd)

/-- PAUSE in a state that takes it (R76). -/
def pauseArm (a : Arm) (s : State) : State :=
  match s.phase a with
  | .waiting => setPhase a .paused (leaveQueue a s)
  | .starting | .filling | .topping => enterClosing a .pause s
  | .closing => setReason a .pause s
  | .idle | .ready | .paused | .halted | .done => s

def judgePause (arm : Byte) (s : State) : Judged :=
  judgeArm arm takesPause (fun a => carried (pauseArm a)) s

/-- PAUSE (R76). -/
def execPause (h : ReqHead) (arm : Byte) (s : State) : Result :=
  .next (request h (.pause arm) (judgePause arm) s)

/-- STOP is taken in these states (R78). -/
def takesStop (c : ArmCtx) : Bool :=
  isRunning c.state || decide (c.state = .paused ∨ c.state = .halted) ||
    decide (c.state = .closing ∧ (c.closeReason = some .theEnd ∨ c.closeReason = some .pause))

/-- STOP in a state that takes it (R78); the mode stop has the same effect in these states (R94). -/
def stopArm (a : Arm) (s : State) : State :=
  match s.phase a with
  | .waiting => enterDone a .stopped (leaveQueue a s)
  | .starting | .filling | .topping => enterClosing a .stop s
  | .closing => setReason a .stop s
  | .paused => enterDone a .stopped s
  | .halted => enterDone a .abandoned s
  | .idle | .ready | .done => s

def judgeStop (arm : Byte) (s : State) : Judged :=
  judgeArm arm takesStop (fun a => carried (stopArm a)) s

/-- STOP (R78). -/
def execStop (h : ReqHead) (arm : Byte) (s : State) : Result :=
  .next (request h (.stop arm) (judgeStop arm) s)

/-! ## FAULT_RESET and RELEASE -/

/-- The fault code becomes absent and the arm goes to PAUSED (R86). -/
def resetFault (a : Arm) (s : State) : State :=
  s.modCtx a (fun c => { c with faultCode := none, state := .paused })

def judgeFaultReset (arm : Byte) (s : State) : Judged :=
  judgeArm arm (isIn .halted)
    (fun a t => if faultStands t a then (.conditionPresent, t) else carried (resetFault a) t) s

/-- FAULT RESET (R86). -/
def execFaultReset (h : ReqHead) (arm : Byte) (s : State) : Result :=
  .next (request h (.faultReset arm) (judgeFaultReset arm) s)

def releaseArm (a : Arm) (s : State) : State := toIdle a (uncountStrokes a s)

def judgeRelease (arm : Byte) (s : State) : Judged :=
  judgeArm arm (isIn .done) (fun a => carried (releaseArm a)) s

/-- RELEASE (R93, R144). -/
def execRelease (h : ReqHead) (arm : Byte) (s : State) : Result :=
  .next (request h (.release arm) (judgeRelease arm) s)

end Sys2Proof.Machine
end

