-- ==== Sys2Proof/Machine/Status.lean ====
section
/-! DEFINITION. Status requests, the Alert List requests and the Record Store requests: ARM_STATUS (R160), ENGINE_STATUS (R161), ALERT_SNAPSHOT (R164), ALERT_ACK (R165), RECORD_FETCH (R167), RECORD_ACK (R168). -/

namespace Sys2Proof.Machine

/-! ## Codes used in reports (section 11.5) -/

def phaseCode : ArmPhase → Byte
  | .idle => 0 | .ready => 1 | .waiting => 2 | .starting => 3 | .filling => 4 | .topping => 5
  | .closing => 6 | .paused => 7 | .halted => 8 | .done => 9

def closeCode : Option CloseReason → Byte
  | none => 0
  | some .theEnd => 1
  | some .pause => 2
  | some .stop => 3
  | some .fault => 4

def alertCode : AlertKind → Byte
  | .permitLost => 0x01 | .meterSilent => 0x02 | .meterSurge => 0x03 | .meterGap => 0x04
  | .meterHeadFault => 0x05 | .valveNoResponse => 0x06 | .valveStationFault => 0x07
  | .blendDeviation => 0x08 | .additiveLost => 0x09 | .estop => 0x0A | .laneStop => 0x0B
  | .valveNotClosed => 0x0C | .injectorNoFlow => 0x10 | .headerWait => 0x11
  | .additiveOverrun => 0x12 | .flowAfterClose => 0x13 | .powerUp => 0x14 | .restarted => 0x15

def faultOctet : Option AlertKind → Byte
  | some k => alertCode k
  | none => 0

def endCode : EndReason → Byte
  | .complete => 0 | .stopped => 1 | .abandoned => 2 | .restart => 3

def armOctet (a : Arm) : Byte := BitVec.ofNat 8 a.val

/-! ## ARM REPORT (section 11.5); k numbers the answer for its free octets (log 7) -/

/-- Bound, tracked and not-closed mark of an arm's station. Chapter 11 gives the last two no code for a
station that is not bound; they are sent as 0 (DESIGN CHOICE, log 31). -/
def stationFlags (s : State) (a : Arm) (st : Stream) : List Bool :=
  match station s a st with
  | some (addr, _) => [true, isTracked s addr, isMarked s addr]
  | none => [false, false, false]

/-- ARM REPORT part 0, 32 octets. -/
def armReport0 (s : State) (a : Arm) : List Byte :=
  let c := s.ctxOf a
  let k := s.free
  [armOctet a, 0, phaseCode c.state,
   flagOctet [c.batch.isSome, c.startTime.isSome, c.reservedSlot, permitBit s a, c.flowAfterClose,
              c.deviationSeen]] ++
    optional k 4 4 (c.batch.map (fun b => b.id.toNat)) ++
    optional k 8 1 (c.batch.map (fun b => b.recipeNo.val)) ++
    optional k 9 4 (c.batch.map (fun b => b.preset)) ++
    be 4 c.g ++ be 4 c.e ++ be 4 c.phaseBase ++ optional k 25 4 c.startTime ++
    [closeCode c.closeReason, faultOctet c.faultCode,
     flagOctet (stationFlags s a .gasoline ++ [false] ++ stationFlags s a .ethanol)]

/-- The 13 octets of a Valve Order Channel; `off` is where they begin. Chapter 11 gives no code for the
departed bit of an order that is absent; it is sent as 0 (DESIGN CHOICE, log 31). -/
def channelOctets (k off : Nat) (c : ValveChan) : List Byte :=
  [flagOctet [c.inFlight.isSome,
     (match c.inFlight with | some o => o.departed | none => false),
     c.latched.isSome, c.pendingSlot.isSome, c.lastSent.isSome, c.held.isSome,
     decide (c.expiryCount = 1)]] ++
    optional k (off + 1) 1 (c.inFlight.map (fun o => o.seq.toNat)) ++
    optional k (off + 2) 2 (c.inFlight.map (fun o => o.demand)) ++
    optional k (off + 4) 2 c.latched ++ optional k (off + 6) 2 c.lastSent ++
    (match c.held with
     | some r => [r.ackSeq] ++ o16 r.flow ++ [flagOctet [r.closed, r.fault]]
     | none => freeOctets k (off + 8) 3 ++ [Config.freeOctet (64 * k + off + 11) &&& 0x03#8]) ++
    [c.nextSeq]

/-- ARM REPORT part 1, 43 octets. -/
def armReport1 (s : State) (a : Arm) : List Byte :=
  let c := s.ctxOf a
  let g := s.grantOf a
  [armOctet a, 1] ++ o16 (BitVec.ofInt 16 c.trim) ++ be 2 c.flow ++ be 2 c.ethDemand ++
    be 2 c.gasDemand ++ be 1 c.devRun ++ be 2 c.maxDev ++ [flagOctet [c.paceHold, g.yieldPending]] ++
    be 1 g.sReq ++ be 1 g.sMin ++ be 1 g.granted ++
    channelOctets s.free 17 (s.chan a .gasoline) ++ channelOctets s.free 30 (s.chan a .ethanol)

/-- The 16 octets of one line. -/
def armLineOctets (s : State) (x : LineState × RecipeLine) : List Byte :=
  be 1 x.2.code ++
    [BitVec.ofNat 8 x.1.channel.val ||| (noYes x.1.outlet <<< 6) |||
      (noYes (RecipeLine.isMandatory x.2) <<< 7)] ++
    be 1 (InjRun.owed (s.injRun x.1.channel) x.1.outlet) ++ be 4 x.1.vs ++ be 3 x.1.due ++
    be 3 x.1.delivered ++ be 3 x.1.dropped

/-- ARM REPORT part 2: the lines from the first line onward, three at most. -/
def armReport2 (s : State) (a : Arm) (first : Byte) : List Byte :=
  let c := s.ctxOf a
  let all := c.lines.zip (ArmCtx.recipe c).lines
  [armOctet a, 2] ++ be 1 all.length ++ [first] ++
    ((all.drop first.toNat).take Config.reportLines).flatMap (armLineOctets s)

/-- ARM STATUS is answered (R160). The rule gives its two checks no order; the arm is checked before the part
(DESIGN CHOICE, log 33). -/
def armStatusAct (h : ReqHead) (arm part first : Byte) (s : State) : State :=
  match armOf arm with
  | none => result h 0x83 .badIndex s
  | some a =>
    match part.toNat with
    | 0 => answer h kindArmReport (armReport0 s a) (useFree s)
    | 1 => answer h kindArmReport (armReport1 s a) (useFree s)
    | 2 => answer h kindArmReport (armReport2 s a first) (useFree s)
    | _ => result h 0x83 .badValue s

/-- ARM STATUS (R160). -/
def execArmStatus (h : ReqHead) (arm part first : Byte) (s : State) : Result :=
  .next (takeU (.request h (.armStatus arm part first)) (armStatusAct h arm part first) s)

/-! ## ENGINE REPORT (R161, section 11.5) -/

/-- ENGINE REPORT part 0, 25 octets. -/
def engineReport0 (s : State) : List Byte :=
  [0, (match s.mgmt.mode with | .standby => 0#8 | .run => 1#8)] ++ be 4 s.mgmt.seconds ++
    be 1 s.header.effective ++
    (match s.header.pendingCap with | some v => be 1 v | none => [0xFF]) ++
    be 1 (grantedSum s) ++ be 1 s.header.queue.length ++
    (s.header.queue.map armOctet ++ List.replicate 8 0xFF#8).take 8 ++
    be 1 s.rep.records.length ++ be 1 s.rep.reserved ++ be 1 s.rep.alerts.length ++
    be 1 (s.rep.alerts.filter (fun x => !x.acknowledged)).length ++ be 2 s.rep.lost ++
    [flagOctet [s.stop.estop, s.stop.trip]]

/-- Five counters, 2 octets each. -/
def counterOctets (c : Counters) : List Byte :=
  be 2 c.crcErrors ++ be 2 c.formatErrors ++ be 2 c.unknownSource ++ be 2 c.misdirected ++
    be 2 c.copiesDropped

/-- ENGINE REPORT part 1, 33 octets. -/
def engineReport1 (s : State) : List Byte :=
  [1] ++ counterOctets s.portU.counters ++ be 2 s.portU.requestsDropped ++
    counterOctets s.d0.counters ++ counterOctets s.d1.counters

/-- ENGINE REPORT part 2, 33 octets. -/
def engineReport2 (s : State) : List Byte := [2] ++ s.meter.unassigned.toList.flatMap (be 4)

/-- All sixteen counters become zero (R15). -/
def zeroCounters (s : State) : State :=
  { s with portU := { s.portU with counters := .zero, requestsDropped := 0 }
           d0 := { s.d0 with counters := .zero }
           d1 := { s.d1 with counters := .zero } }

def engineStatusAct (h : ReqHead) (part clear : Byte) (s : State) : State :=
  match part.toNat, yesNo clear with
  | 0, some false => answer h kindEngineReport (engineReport0 s) s
  | 1, some false => answer h kindEngineReport (engineReport1 s) s
  | 1, some true => answer h kindEngineReport (engineReport1 s) (zeroCounters s)
  | 2, some false => answer h kindEngineReport (engineReport2 s) s
  | _, _ => result h 0x84 .badValue s

/-- ENGINE STATUS (R161). -/
def execEngineStatus (h : ReqHead) (part clear : Byte) (s : State) : Result :=
  .next (takeU (.request h (.engineStatus part clear)) (engineStatusAct h part clear) s)

/-! ## ALERT LIST (R164, section 11.5) -/

def subjectOctets : Subject → List Byte
  | .nobody => [0, 0]
  | .arm a => [1, armOctet a]
  | .node n => [2, n]
  | .channel c => [3, BitVec.ofNat 8 c.val]

def alertOctets (x : Alert) : List Byte :=
  [alertCode x.kind] ++ subjectOctets x.subject ++ be 1 (levelOf x.kind) ++ be 4 x.number ++
    [flagOctet [x.acknowledged, x.present]]

/-- The entries above a start number, in ascending raise number; entries of the same number keep the
list's order (log 17). -/
def entriesAbove (start : Nat) (xs : List Alert) : List Alert :=
  sortBy (fun x y => decide (x.number < y.number)) (xs.filter (fun x => decide (start < x.number)))

def alertPage (s : State) (start : Nat) : List Byte :=
  let xs := entriesAbove start s.rep.alerts
  be 4 s.rep.raiseCounter ++ be 1 s.rep.alerts.length ++ be 2 s.rep.lost ++
    [flagOctet [decide (Config.snapshotEntries < xs.length)]] ++
    (xs.take Config.snapshotEntries).flatMap alertOctets

def alertSnapshotAct (h : ReqHead) (start : Word32) (s : State) : State :=
  answer h kindAlertList (alertPage s start.toNat) s

/-- ALERT SNAPSHOT (R164). -/
def execAlertSnapshot (h : ReqHead) (start : Word32) (s : State) : Result :=
  .next (takeU (.request h (.alertSnapshot start)) (alertSnapshotAct h start) s)

/-! ## ALERT_ACK (R165) -/

/-- An entry covered by the mark is removed when its condition is over, acknowledged otherwise. -/
def ackEntry (mark : Nat) (x : Alert) : Option Alert :=
  if x.number ≤ mark then
    if x.present then some { x with acknowledged := true } else none
  else some x

def ackAlerts (mark : Nat) (s : State) : State :=
  let t := setAlerts (s.rep.alerts.filterMap (ackEntry mark)) s
  if s.rep.highestLost ≤ mark then { t with rep := { t.rep with lost := 0, highestLost := 0 } } else t

def judgeAlertAck (mark : Word32) (s : State) : Judged := (.done, ackAlerts mark.toNat s)

/-- ALERT ACK (R165). -/
def execAlertAck (h : ReqHead) (mark : Word32) (s : State) : Result :=
  .next (request h (.alertAck mark) (judgeAlertAck mark) s)

/-! ## BATCH RECORD (R167, section 11.5) -/

def recordLineOctets (l : RecordLine) : List Byte := be 1 l.code ++ be 3 l.due ++ be 3 l.delivered

/-- The flags octet of a record: end reason in bits 0 and 1, then the flags of R92 and bit 7. -/
def recordFlags (r : BatchRecord) : Byte :=
  endCode r.reason ||| flagOctet [false, false, r.additiveShort, r.flowAfterClose, r.deviationSeen,
    false, false, r.startTime.isSome]

def recordOctets (k : Nat) (r : BatchRecord) : List Byte :=
  o32 r.id ++ [(armOctet r.arm <<< 5) ||| BitVec.ofNat 8 r.recipeNo.val, recordFlags r] ++
    be 2 r.maxDev ++ be 4 r.preset ++ be 4 r.g ++ be 4 r.e ++ optional k 20 4 r.startTime ++
    be 4 r.endTime ++ r.lines.flatMap recordLineOctets

def recordFetchAct (h : ReqHead) (s : State) : State :=
  match s.rep.records with
  | [] => result h 0x87 .empty s
  | r :: _ => answer h kindBatchRecord (recordOctets s.free r) (useFree s)

/-- RECORD FETCH (R167). -/
def execRecordFetch (h : ReqHead) (s : State) : Result :=
  .next (takeU (.request h .recordFetch) (recordFetchAct h) s)

/-! ## RECORD_ACK (R168) -/

def judgeRecordAck (id : Word32) (s : State) : Judged :=
  match s.rep.records with
  | [] => (.empty, s)
  | r :: rest =>
    if r.id = id then (.done, { s with rep := { s.rep with records := rest } }) else (.notOldest, s)

/-- RECORD ACK (R168). -/
def execRecordAck (h : ReqHead) (id : Word32) (s : State) : Result :=
  .next (request h (.recordAck id) (judgeRecordAck id) s)

end Sys2Proof.Machine
end

