-- ==== Sys2Proof/Machine/Engine.lean ====
section
/-! DEFINITION. The engine as a whole: MODE (R159, R94), RESTART (R155, R17), LANE_STOP (R153), POWER_ON (R154), the ESTOP_N input (R152, R89), and ENGINE_SECONDS_TICK (R161). -/

namespace Sys2Proof.Machine

/-! ## MODE -/

/-- The mode stop of one arm (R94). -/
def modeStop (a : Arm) (s : State) : State :=
  let c := s.ctxOf a
  if c.state = .ready then cancelBatch a s
  else if takesStop c then stopArm a s
  else s

/-- The mode stop of every active arm, in ascending arm number, and then the mode (R94, R159). -/
def forceStandby (s : State) : State :=
  let t := allArms.foldl (fun t a => if isActive (t.phase a) then modeStop a t else t) s
  { t with mgmt := { t.mgmt with mode := .standby } }

def anyActive (s : State) : Bool := allArms.any (fun a => isActive (s.phase a))

/-- The mode asked for (section 11.4). -/
def modeOf (b : Byte) : Option Mode :=
  match b.toNat with
  | 0 => some .standby
  | 1 => some .run
  | _ => none

def judgeMode (mode force : Byte) (s : State) : Judged :=
  match modeOf mode, yesNo force with
  | some .run, some _ => (.done, { s with mgmt := { s.mgmt with mode := .run } })
  | some .standby, some force =>
    if s.mgmt.mode = .standby then (.done, s)
    else if anyActive s then
      if force then carried forceStandby s else (.armsActive, s)
    else (.done, { s with mgmt := { s.mgmt with mode := .standby } })
  | _, _ => (.badValue, s)

/-- MODE (R159). -/
def execMode (h : ReqHead) (mode force : Byte) (s : State) : Result :=
  .next (request h (.mode mode force) (judgeMode mode force) s)

/-! ## RESTART, step by step (R155) -/

/-- Step 1: records of the arms that hold a reserved slot, then every arm IDLE (R95). -/
def restartArms (s : State) : State :=
  let t := allArms.foldl (fun t a =>
    if (t.ctxOf a).reservedSlot then enterDone a .restart t else t) s
  { t with arms := { t.arms with
      ctx := Vector.replicate 8 .idle, closing := Vector.replicate 8 .cleared,
      permits := 0, permitTimer := none } }

/-- Step 2 (R129, R111). -/
def restartHeader (s : State) : State :=
  { s with
    header := { s.header with
      effective := s.header.pendingCap.getD s.header.effective, pendingCap := none,
      grants := Vector.replicate 8 .zero, queue := [], grantCounter := 0,
      waitTimers := Vector.replicate 8 .stopped, spacing := none, passCalled := false,
      yieldAnswers := [] }
    reg := { s.reg with watch := Vector.replicate 8 false } }

/-- A channel's run state after RESTART (R132, R145). -/
def restartRun (r : InjRun) : InjRun :=
  { r with state := if r.state = .stroking then .available else r.state,
           owed0 := 0, owed1 := 0, inFlight := none, strokeReady := none }

/-- Step 3 (R145). -/
def restartInjectors (s : State) : State :=
  { s with inj := { s.inj with run := mapVec restartRun s.inj.run } }

/-- A Valve Order Channel after RESTART (R102). -/
def restartChan (c : ValveChan) : ValveChan :=
  { ValveChan.initial with nextSeq := c.nextSeq, held := c.held }

/-- Step 4 (R102). -/
def restartValves (s : State) : State :=
  { s with reg := { s.reg with gas := mapVec restartChan s.reg.gas, eth := mapVec restartChan s.reg.eth } }

/-- The normal queue after RESTART: the frame begun, and the relayed frames (R17). -/
def restartPort (x : PortD) : PortD :=
  let parts := begunPart (normalBegun x) x.normal
  { x with normal := parts.1 ++ parts.2.filter (fun f => decide (f.owner = .relayed)),
           counters := .zero }

/-- Step 5 (R17). -/
def restartPorts (s : State) : State :=
  { s with portU := { s.portU with counters := .zero, requestsDropped := 0 },
           d0 := restartPort s.d0, d1 := restartPort s.d1 }

/-- Step 6 (R54, R64). -/
def restartMeters (s : State) : State :=
  { s with meter := { s.meter with
      run := Vector.replicate 16 .cleared, unassigned := Vector.replicate 8 0 } }

/-- Step 7 (R162). RESTARTED is over as it is raised. -/
def restartReports (s : State) : State :=
  setAlerts
    [{ kind := .restarted, subject := .nobody, number := 1, acknowledged := false, present := false }]
    { s with rep := { s.rep with raiseCounter := 1, lost := 0, highestLost := 0 } }

/-- Step 8 (R159). -/
def restartMode (s : State) : State := { s with mgmt := { s.mgmt with mode := .standby } }

/-- Step 9 (R147, R151). -/
def restartStops (s : State) : State :=
  laneStop 0xFF
    { s with stop := { s.stop with tracking := [], trip := tripLine s.stop.marks } }

/-- The restart in the order of R155. -/
def restartEngine (s : State) : State :=
  restartStops (restartMode (restartReports (restartMeters (restartPorts (restartValves
    (restartInjectors (restartHeader (restartArms s))))))))

/-- RESULT DONE joins the Port U queue first (R155). -/
def restartAct (h : ReqHead) (confirm : Byte) (s : State) : State :=
  if confirm = s.mgmt.ownAddr then restartEngine (result h 0x8A .done s)
  else result h 0x8A .badValue s

/-- RESTART (R155). -/
def execRestart (h : ReqHead) (confirm : Byte) (s : State) : Result :=
  .next (takeU (.request h (.restart confirm)) (restartAct h confirm) s)

/-! ## LANE_STOP -/

/-- A lane stop with the faults of R90. -/
def laneStopRequest (arms : Byte) (s : State) : State :=
  faultRunning arms .laneStop (laneStop arms s)

def judgeLaneStop (arms : Byte) (s : State) : Judged :=
  if arms = 0 then (.badValue, s) else carried (laneStopRequest arms) s

/-- LANE STOP (R153). -/
def execLaneStop (h : ReqHead) (arms : Byte) (s : State) : Result :=
  .next (request h (.laneStop arms) (judgeLaneStop arms) s)

/-! ## POWER_ON -/

/-- The engine's own address from the straps (R16). -/
def strapAddress (straps : BitVec 3) : Byte := 0xE0 + straps.setWidth 8

/-- The power-on values with the pins as sampled (R154, R152). What waits in the queue of commands is
outside the engine and stays. -/
def powerOnState (straps : BitVec 3) (estop : Bool) (s : State) : State :=
  let t := { State.reset with
    mgmt := { State.reset.mgmt with ownAddr := strapAddress straps }
    stop := { State.reset.stop with estop := estop }
    pending := s.pending
    free := s.free }
  if estop then enterAlert .estop .nobody t else t

/-- POWER_ON (R154). -/
def execPowerOn (straps : BitVec 3) (estop : Bool) (s : State) : Result :=
  .next (powerOnState straps estop s)

/-! ## ESTOP_N -/

/-- The assertion (R152): the lane stop, the subjectless alert, then the faults of R89. -/
def assertEstop (s : State) : State :=
  settleAlerts (faultRunning 0xFF .estop (raiseAlert .estop .nobody
    (laneStop 0xFF { s with stop := { s.stop with estop := true } })))

/-- ESTOP_ASSERTED (R152). Only a change of level is taken (log 22). -/
def execEstopAsserted (s : State) : Result :=
  .next (if s.stop.estop then s else assertEstop s)

/-- ESTOP_RELEASED (R152, R89): the conditions of ESTOP end. -/
def execEstopReleased (s : State) : Result :=
  .next (if s.stop.estop then settleAlerts { s with stop := { s.stop with estop := false } } else s)

/-! ## ENGINE_SECONDS_TICK -/

/-- ENGINE_SECONDS_TICK (R161). -/
def execEngineSecondsTick (s : State) : Result :=
  .next { s with mgmt := { s.mgmt with seconds := bump Config.max32 s.mgmt.seconds } }

end Sys2Proof.Machine
end

