-- ==== Sys2Proof/Machine/Meter.lean ====
section
/-! DEFINITION. The Meter Unit: METER_SAMPLE (R55 to R65, R68) and METER_SILENCE_EXPIRY (R67). -/

namespace Sys2Proof.Machine

/-! ## Reading a sample (R55, R56, R58) -/

/-- Count formats (section 11.6). -/
def isDelta8 (r : MeterRec) : Bool := decide (r.format = 2)

/-- The count reduced to the format's modulus (R54, R55). -/
def countOf (r : MeterRec) (m : Sample) : Nat :=
  match r.format.toNat with
  | 0 => m.count.toNat % 65536
  | _ => m.count.toNat

/-- The delta of an accepted in-order or gap sample (R58). -/
def deltaOf (r : MeterRec) (last : Nat) (m : Sample) : Nat :=
  match r.format.toNat with
  | 0 => (countOf r m + 65536 - last % 65536) % 65536
  | 1 => (countOf r m + 16777216 - last % 16777216) % 16777216
  | _ => countOf r m

/-- Classes of a sample by its sequence (R56). -/
inductive SampleClass where
  | baseline | duplicate | inOrder | gap
  deriving DecidableEq, Repr

def classOf (last : Option Byte) (seq : Byte) : SampleClass :=
  match last with
  | none => .baseline
  | some q => if seq = q then .duplicate else if seq = q + 1 then .inOrder else .gap

/-! ## Conversion (R60, R61) -/

/-- The raw flow; an interval of 0 is taken as 1 (R55, R60). -/
def rawFlow (k delta interval : Nat) : Nat := delta * 1000 * 60000 / (k * max interval 1)

/-- The factor of the selected band (R60). -/
def bandFactor (raw : Nat) : List Band → Nat
  | [] => 0
  | [b] => b.factor
  | b :: rest => if raw ≤ b.bound then b.factor else bandFactor raw rest

/-- The numerator of the conversion (R61). -/
def numerator (r : MeterRec) (remainder delta interval : Nat) : Nat :=
  delta * bandFactor (rawFlow r.k delta interval) r.bands + remainder

/-! ## Acceptance (R56, R57, R66, R67, R68) -/

/-- The arm named by the slot's meter entry is in a flowing state or CLOSING (R66). It need not be the arm a
sample was handed over with, whose entry may have been rebound since (R23). -/
def slotMoving (s : State) (i : Slot) : Bool :=
  match slotArm s i with
  | some a => isMoving (s.phase a)
  | none => false

/-- The silence timer after an accepted sample: it starts again if it runs, or if the sample ends a
silence while the slot's arm is in a flowing state or CLOSING (`moving`, R66, R67). -/
def timerAfter (r : MeterRec) (x : MeterRun) (moving : Bool) : Timer :=
  if x.timer.isSome || (x.silent && moving) then some r.silence else none

/-- The run state an accepted sample leaves, before any conversion. -/
def acceptedRun (r : MeterRec) (x : MeterRun) (m : Sample) (gap moving : Bool) : MeterRun :=
  { x with
    lastSeq := some m.seq
    lastCount := countOf r m
    headFault := m.fault
    headRaised := x.headRaised && m.fault
    gapCount := if gap then bump Config.max16 x.gapCount else x.gapCount
    silent := false
    timer := timerAfter r x moving }

/-! ## The faults of a sample (R57, R59, R68) -/

def raiseGap (m : Sample) (s : State) : State :=
  if isMoving (s.phase m.arm) then faultArm m.arm .meterGap s else s

def raiseSurge (m : Sample) (s : State) : State :=
  if takesVolume (s.phase m.arm) then faultArm m.arm .meterSurge s else s

/-- METER_HEAD_FAULT, once for each run of flow (R68). -/
def raiseHead (m : Sample) (s : State) : State :=
  if m.fault && isMoving (s.phase m.arm) && !(s.meterRun m.slot).headRaised then
    faultArm m.arm .meterHeadFault
      (s.setMeterRun m.slot { s.meterRun m.slot with headRaised := true })
  else s

/-- The faults of one sample, in the order it takes them (R85, log 5). -/
def sampleFaults (m : Sample) (o : SampleOrder) (gap surge : Bool) (s : State) : State :=
  let g (t : State) : State := if gap then raiseGap m t else t
  let u (t : State) : State := if surge then raiseSurge m t else t
  let a (t : State) : State := if o.surgeFirst then u t else g t
  let b (t : State) : State := if o.surgeFirst then g t else u t
  match o.headPlace with
  | .first => b (a (raiseHead m s))
  | .between => b (raiseHead m (a s))
  | .last => raiseHead m (b (a s))

/-! ## Where the volume goes (R63 to R65) -/

/-- The volume is added to the batch (R63). -/
def addVolume (m : Sample) (volume : Nat) (s : State) : State :=
  let t := s.modCtx m.arm (fun c =>
    match m.stream with
    | .gasoline => { c with g := satAdd Config.max32 c.g volume }
    | .ethanol => { c with e := satAdd Config.max32 c.e volume })
  t.setMeterRun m.slot { t.meterRun m.slot with stray := false }

/-- A quiet sample settles its meter while the arm is in CLOSING and the valve condition holds (R81). The arm's
state is read at the hand-on, before the sample's evaluation: R65 and R81 leave that order open (DESIGN CHOICE,
log 30). The meter is told by the stream the sample was handed over with, even if its slot is the arm's meter
no more (R23): the spec leaves that open (DESIGN CHOICE, log 32). -/
def settleMeter (m : Sample) (delta : Nat) (s : State) : State :=
  if delta = 0 ∧ s.phase m.arm = .closing ∧ valveCondition s m.arm = true then
    s.setClose m.arm
      (match m.stream with
       | .gasoline => { s.closeOf m.arm with gasSettled := true }
       | .ethanol => { s.closeOf m.arm with ethSettled := true })
  else s

/-- The volume is handed on to the arm (R65). `p` is the arm's state when the sample was taken. R65 orders
neither the settle of a quiet sample nor the stroke work (R133) among the acts of a hand-on. The model settles
first, so a sample whose own evaluation takes the arm into CLOSING does not count (DESIGN CHOICE, log 30), and
takes the stroke work before or after the evaluation and the phase check, never between them (DESIGN CHOICE,
log 5). -/
def handOn (m : Sample) (o : SampleOrder) (p : ArmPhase) (delta : Nat) (s : State) : State :=
  let s1 := settleMeter m delta s
  if o.strokesFirst then evalAndPhase o.phaseFirst m.arm (strokesFall m.arm p s1)
  else strokesFall m.arm p (evalAndPhase o.phaseFirst m.arm s1)

/-- The stray-flow mark is set and FLOW_AFTER_CLOSE raised, once while the mark stays set (R64). -/
def markStray (m : Sample) (s : State) : State :=
  if (s.meterRun m.slot).stray then s
  else raiseAlert .flowAfterClose (.arm m.arm)
    (s.setMeterRun m.slot { s.meterRun m.slot with stray := true })

/-- The arm's unassigned volume grows, saturating (R64). -/
def growUnassigned (a : Arm) (volume : Nat) (s : State) : State :=
  let v := satAdd Config.max32 (sel s.meter.unassigned a) volume
  { s with meter := { s.meter with unassigned := put s.meter.unassigned a v } }

/-- The volume goes to the arm's unassigned volume (R64). -/
def addUnassigned (m : Sample) (p : ArmPhase) (volume : Nat) (s : State) : State :=
  if volume = 0 then s.setMeterRun m.slot { s.meterRun m.slot with stray := false }
  else
    let s1 := growUnassigned m.arm volume s
    let s2 := if p = .ready ∨ p = .waiting then
      s1.modCtx m.arm (fun c => { c with flowAfterClose := true }) else s1
    markStray m s2

/-- A delta within the surge limit is converted (R60, R61), and its volume goes where the arm's state
says (R63, R64). -/
def convertSample (m : Sample) (o : SampleOrder) (p : ArmPhase) (delta : Nat) (s : State) : State :=
  let r := s.meterRec m.slot
  let x := s.meterRun m.slot
  let n := numerator r x.remainder delta m.interval.toNat
  let s1 := s.setMeterRun m.slot
    { x with remainder := n % r.k, lastFlow := rawFlow r.k delta m.interval.toNat }
  if takesVolume p then handOn m o p delta (addVolume m (n / r.k) s1)
  else addUnassigned m p (n / r.k) s1

/-! ## METER_SAMPLE -/

/-- An accepted in-order or gap sample (R57 to R65). -/
def measure (m : Sample) (o : SampleOrder) (gap : Bool) (s : State) : State :=
  let r := s.meterRec m.slot
  let x := s.meterRun m.slot
  let p := s.phase m.arm
  let delta := deltaOf r x.lastCount m
  let s1 := s.setMeterRun m.slot (acceptedRun r x m gap (slotMoving s m.slot))
  let lostGap := gap && isDelta8 r
  if r.surge < delta then sampleFaults m o lostGap true s1
  else if o.faultsFirst then convertSample m o p delta (sampleFaults m o lostGap false s1)
  else sampleFaults m o lostGap false (convertSample m o p delta s1)

/-- A baseline sample forms no delta (R56). -/
def takeBaseline (m : Sample) (s : State) : State :=
  raiseHead m (s.setMeterRun m.slot
    (acceptedRun (s.meterRec m.slot) (s.meterRun m.slot) m false (slotMoving s m.slot)))

/-- The Meter Unit takes a sample. The arm's close is judged once, at the end (R81): when the sample that
settles the last meter also brings a fault, the fault is raised first, in every SampleOrder. The spec
leaves the order of completion and fault open (DESIGN CHOICE, log 26). -/
def sampleAct (m : Sample) (o : SampleOrder) (s : State) : State :=
  if (s.meterRec m.slot).valid then
    match classOf (s.meterRun m.slot).lastSeq m.seq with
    | .duplicate => s
    | .baseline => settleAlerts (judgeClose m.arm (takeBaseline m s))
    | .inOrder => settleAlerts (judgeClose m.arm (measure m o false s))
    | .gap => settleAlerts (judgeClose m.arm (measure m o true s))
  else s

/-- METER_SAMPLE: the samples of one slot are taken in the order they were handed over (section 4.3). -/
def execMeterSample (m : Sample) (o : SampleOrder) (s : State) : Result :=
  let r := takeFrom (fun x => decide (x.slot = m.slot)) s.meter.samples m
  let t := { s with meter := { s.meter with samples := r.1 } }
  .next (if r.2 then sampleAct m o t else t)

/-! ## METER_SILENCE_EXPIRY -/

/-- The silent mark is set and METER_SILENT raised on the arm of the slot's entry (R67); then the close of
an arm in CLOSING is judged (R81). The spec does not say whether the close is judged before or after the
fault (DESIGN CHOICE, log 26). -/
def fallSilent (i : Slot) (s : State) : State :=
  let t := s.setMeterRun i { s.meterRun i with silent := true, timer := none }
  match slotArm t i with
  | some a => settleAlerts (judgeClose a (faultArm a .meterSilent t))
  | none => t

/-- METER_SILENCE_EXPIRY (R67). A stopped timer does not expire (log 3). -/
def execMeterSilenceExpiry (i : Slot) (s : State) : Result :=
  match (s.meterRun i).timer with
  | some _ => .next (fallSilent i s)
  | none => .next s

end Sys2Proof.Machine
end

