-- ==== Sys2Proof/Machine/ValveCmds.lean ====
section
/-! DEFINITION. VALVE_REPORT (R106, R107, R111), VALVE_RESPONSE_EXPIRY (R108 to R110), CLOSE_LIMIT_EXPIRY (R82). -/

namespace Sys2Proof.Machine

/-! ## VALVE_REPORT -/

/-- The held report becomes the report (R106 step 1). -/
def holdReport (r : ValveRpt) (s : State) : State :=
  s.setChan r.arm r.stream
    { s.chan r.arm r.stream with
      held := some { ackSeq := r.ackSeq, flow := r.flow, closed := r.closed, fault := r.fault } }

/-- The order a report acknowledges (R106 step 2). -/
def acknowledged (c : ValveChan) (ackSeq : Byte) : Option ValveFlight :=
  match c.inFlight with
  | some o => if o.departed ∧ o.seq = ackSeq then some o else none
  | none => none

/-- After an acknowledgement a latched demand that differs from it is placed at once (R106 step 2). -/
def placeLatched (a : Arm) (st : Stream) (acked : Nat) (s : State) : State :=
  let c := s.chan a st
  match c.latched with
  | some d => if d = acked then s.setChan a st { c with latched := none } else placeOrder a st d s
  | none => s

/-- The watch is answered when the ethanol channel is IDLE with nothing latched (R111). -/
def answerWatch (a : Arm) (s : State) : State :=
  let c := s.chan a .ethanol
  if sel s.reg.watch a && c.inFlight.isNone && c.latched.isNone then
    let t := s.setWatch a false
    { t with header := { t.header with yieldAnswers := t.header.yieldAnswers ++ [a] } }
  else s

/-- The acknowledgement of an order (R106 step 2, R111). -/
def acknowledge (a : Arm) (st : Stream) (o : ValveFlight) (s : State) : State :=
  let t := placeLatched a st o.demand
    (s.setChan a st { s.chan a st with inFlight := none, expiryCount := 0 })
  match st with
  | .gasoline => t
  | .ethanol => answerWatch a t

def takeAck (r : ValveRpt) (s : State) : State :=
  match acknowledged (s.chan r.arm r.stream) r.ackSeq with
  | some o => acknowledge r.arm r.stream o s
  | none => s

/-- The Blend Regulator and the Arm Sequencer take a report (order: log 6). -/
def valveReportAct (r : ValveRpt) (s : State) : State :=
  let flowing := isFlowing (s.phase r.arm)
  let s1 := recheckSettled r.arm (takeAck r (holdReport r s))
  let s2 := if r.fault && flowing then faultArm r.arm .valveStationFault s1 else s1
  settleAlerts (judgeClose r.arm s2)

/-- VALVE_REPORT (R106): the reports of one station are taken in the order they were handed over
(R26). -/
def execValveReport (r : ValveRpt) (s : State) : Result :=
  let x := takeFrom (fun y => decide (y.station = r.station)) s.reg.reports r
  let t := { s with reg := { s.reg with reports := x.1 } }
  .next (if x.2 then valveReportAct r t else t)

/-! ## VALVE_RESPONSE_EXPIRY -/

/-- The first expiry: the channel sends again (R108). -/
def resend (a : Arm) (st : Stream) (o : ValveFlight) (s : State) : State :=
  let c := s.chan a st
  let d := c.latched.getD o.demand
  placeOrder a st d (s.setChan a st
    { c with inFlight := none, latched := some d, lastSent := none, expiryCount := 1 })

/-- The second expiry: the channel gives up (R109). -/
def giveUp (a : Arm) (st : Stream) (o : ValveFlight) (s : State) : State :=
  s.setChan a st
    { s.chan a st with
      inFlight := none, latched := none, pendingSlot := none, expiryCount := 0,
      lastSent := some o.demand }

/-- What follows the second expiry (R109, R110). -/
def unanswered (a : Arm) (s : State) : State :=
  if s.phase a = .closing then laneStop (onlyArm a) s else faultArm a .valveNoResponse s

def responseExpired (a : Arm) (st : Stream) (o : ValveFlight) (s : State) : State :=
  if (s.chan a st).expiryCount = 0 then resend a st o s
  else settleAlerts (unanswered a (giveUp a st o s))

/-- VALVE_RESPONSE_EXPIRY (R108). A stopped timer does not expire (log 3). -/
def execValveResponseExpiry (a : Arm) (st : Stream) (s : State) : Result :=
  match (s.chan a st).inFlight with
  | some o => .next (if o.timer.isSome then responseExpired a st o s else s)
  | none => .next s

/-! ## CLOSE_LIMIT_EXPIRY -/

/-- The valves are closed and a meter is not at rest: the close completes with FLOW_AFTER_CLOSE
(R82, first case). -/
def closeUnsettled (a : Arm) (s : State) : State :=
  completeClose a (raiseAlert .flowAfterClose (.arm a)
    (s.modCtx a (fun c => { c with flowAfterClose := true })))

/-- A valve is not closed: a lane stop, and HALTED with VALVE_NOT_CLOSED (R82, second case). -/
def closeFailed (a : Arm) (s : State) : State :=
  raiseAlert .valveNotClosed (.arm a)
    (setFaultCode a .valveNotClosed (setPhase a .halted (leaveClosing a (laneStop (onlyArm a) s))))

def closeLimitExpired (a : Arm) (s : State) : State :=
  if s.phase a = .closing then
    settleAlerts (if valveCondition s a then closeUnsettled a s else closeFailed a s)
  else s

/-- CLOSE_LIMIT_EXPIRY (R82). A stopped timer does not expire (log 3). -/
def execCloseLimitExpiry (a : Arm) (s : State) : Result :=
  .next (if (s.closeOf a).timer.isSome then closeLimitExpired a s else s)

end Sys2Proof.Machine
end

