-- ==== Sys2Proof/Machine/InjectorCmds.lean ====
section
/-! DEFINITION. STROKE_REPORT (R137, R138) and STROKE_TIMER_EXPIRY (R138, R139). -/

namespace Sys2Proof.Machine

/-- The channel has no stroke in flight any more and is AVAILABLE (R137, R138). -/
def resolved (r : InjRun) (misses : Nat) : InjRun :=
  { r with state := .available, missCount := misses, inFlight := none }

/-- A confirmed stroke in its line's counts, by its charge (R137). -/
def confirmLine (charge : Charge) (l : LineState) : LineState :=
  match charge with
  | .owed => { l with delivered := l.delivered + 1 }
  | .dropped => { l with delivered := l.delivered + 1, dropped := l.dropped - 1 }
  | .uncounted => l

/-- The outlet's owed count after a confirmed stroke (R137). -/
def confirmOwed (k : StrokeFlight) (r : InjRun) : InjRun :=
  match k.charge with
  | .owed => InjRun.setOwed r k.outlet (InjRun.owed r k.outlet - 1)
  | .dropped | .uncounted => r

/-- A confirmed report resolves the stroke; the channel serves on, and then pace hold is judged if the
outlet's owed count has changed, which a stroke charged DROPPED or NONE leaves (R137, R135, R141, order:
log 6). -/
def strokeConfirmed (c : Channel) (k : StrokeFlight) (s : State) : State :=
  let s1 := s.setInjRun c (resolved (confirmOwed k (s.injRun c)) 0)
  match InjRec.outletArm (s.injRec c) k.outlet with
  | some a =>
    judgeOutlet c (s.injRun c) (serveChannel c (modLine a c (confirmLine k.charge) s1)) k.outlet
  | none => serveChannel c s1

/-- The miss count after a miss (R138). -/
def missesAfter (check : Nat) (k : StrokeFlight) (n : Nat) : Nat :=
  if check ≤ k.flowAtOrder then bump Config.missLimit n else n

/-- A missed stroke: the channel is isolated at the fourth counted miss, and serves on otherwise
(R138, R139). -/
def strokeMissed (c : Channel) (k : StrokeFlight) (s : State) : State :=
  let n := missesAfter (s.injRec c).check k (s.injRun c).missCount
  let t := s.setInjRun c (resolved (s.injRun c) n)
  if n = Config.missLimit then isolate c t else serveChannel c t

/-- The stroke a report answers: the head binding holds for its source, and the departed stroke in
flight carries its sequence (R137). -/
def answeredStroke (s : State) (r : StrokeRpt) : Option StrokeFlight :=
  let x := s.injRun r.channel
  match headBinding s r.channel, x.inFlight with
  | some (addr, _), some k =>
    if addr = r.source ∧ x.state = .stroking ∧ k.departed ∧ k.seq = r.seq then some k else none
  | _, _ => none

def strokeReportAct (r : StrokeRpt) (s : State) : State :=
  match answeredStroke s r with
  | some k =>
    settleAlerts (if r.confirmed then strokeConfirmed r.channel k s else strokeMissed r.channel k s)
  | none => s

/-- STROKE_REPORT (R137): the reports of one head are taken in the order they were handed over (R26). -/
def execStrokeReport (r : StrokeRpt) (s : State) : Result :=
  let x := takeFrom (fun y => decide (y.source = r.source)) s.inj.reports r
  let t := { s with inj := { s.inj with reports := x.1 } }
  .next (if x.2 then strokeReportAct r t else t)

/-- STROKE_TIMER_EXPIRY (R138). A stopped timer does not expire (log 3). -/
def execStrokeTimerExpiry (c : Channel) (s : State) : Result :=
  match (s.injRun c).inFlight with
  | some k => .next (if k.timer.isSome then settleAlerts (strokeMissed c k s) else s)
  | none => .next s

end Sys2Proof.Machine
end

