-- ==== Sys2Proof/Machine/HeaderCmds.lean ====
section
/-! DEFINITION. SERVING_PASS (R119 to R121), SPACING_TIMER_EXPIRY (R122), WAIT_TIMER_EXPIRY (R128), YIELD_ANSWER (R124). -/

namespace Sys2Proof.Machine

/-- SERVING_PASS (R119, R120): a pass is made when one has been called for and the spacing timer does
not run (log 13). -/
def execServingPass (s : State) : Result :=
  .next (if s.header.passCalled && s.header.spacing.isNone then settleAlerts (makePass s) else s)

/-- SPACING_TIMER_EXPIRY (R122): the timer stops and a pass is made, whether or not one was called
for. -/
def execSpacingTimerExpiry (s : State) : Result :=
  match s.header.spacing with
  | some _ => .next (settleAlerts (makePass { s with header := { s.header with spacing := none } }))
  | none => .next s

/-- The wait of an arm still in WAITING has passed its limit (R128). -/
def waitExpired (a : Arm) (s : State) : State :=
  if s.phase a = .waiting then
    settleAlerts (raiseAlert .headerWait (.arm a) (s.setWaitTimer a { timer := none, raised := true }))
  else s.setWaitTimer a { sel s.header.waitTimers a with timer := none }

/-- WAIT_TIMER_EXPIRY (R128). A stopped timer does not expire (log 3). -/
def execWaitTimerExpiry (a : Arm) (s : State) : Result :=
  match (sel s.header.waitTimers a).timer with
  | some _ => .next (waitExpired a s)
  | none => .next s

/-- The surplus of an answered yield is released (R124). -/
def releaseSurplus (a : Arm) (s : State) : State :=
  let g := s.grantOf a
  if g.yieldPending then
    afterRelease (s.setGrant a { g with granted := g.sMin, yieldPending := false })
  else s

/-- YIELD_ANSWER (R124): an answer the Blend Regulator has given is taken. One that finds no yield
pending releases nothing; with no answer given there is nothing to take (log 18). -/
def execYieldAnswer (a : Arm) (s : State) : Result :=
  .next (if a ∈ s.header.yieldAnswers then
    releaseSurplus a { s with header := { s.header with
      yieldAnswers := dropItem a s.header.yieldAnswers } }
  else s)

end Sys2Proof.Machine
end

