-- ==== Sys2Proof/Machine/StopCmds.lean ====
section
/-! DEFINITION. LANE_STOP_VALVE_REPORT (R149) and RETRY_TIMER_EXPIRY (R150). -/

namespace Sys2Proof.Machine

/-! ## LANE_STOP_VALVE_REPORT -/

/-- A closed report confirms a tracked station and clears its not-closed mark (R149). -/
def confirmStation (addr : Byte) (s : State) : State :=
  let t := if isTracked s addr then untrack [addr] s else s
  settleAlerts (if isMarked t addr then setMark addr false t else t)

/-- LANE_STOP_VALVE_REPORT (R149): the reports of one station are taken in the order they were handed
over (R26). -/
def execLaneStopValveReport (r : ValveRpt) (s : State) : Result :=
  let x := takeFrom (fun y => decide (y.station = r.station)) s.stop.reports r
  let t := { s with stop := { s.stop with reports := x.1 } }
  .next (if x.2 && r.closed then confirmStation r.station t else t)

/-! ## RETRY_TIMER_EXPIRY -/

/-- The set at a position with its retry count raised and its timer started again (R150). -/
def retrySet (s : State) (t : TrackSet) : TrackSet :=
  { t with retry := t.retry + 1, timer := some s.mgmt.settings.retryInterval }

/-- A STOP ORDER for each member, in ascending node address (R150). -/
def retryStations (position : Nat) (t : TrackSet) (s : State) : State :=
  t.members.foldl (fun u n => offerStopOrder n u)
    { s with stop := { s.stop with tracking := s.stop.tracking.set position (retrySet s t) } }

/-- One member is declared not closed (R150). -/
def declareNotClosed (s : State) (addr : Byte) : State :=
  faultArm (nodeAt s addr).arm .valveNotClosed
    (raiseAlert .valveNotClosed (.node addr) (setMark addr true (untrack [addr] s)))

def retryExpired (position : Nat) (t : TrackSet) (s : State) : State :=
  if t.retry < Config.retryLimit then retryStations position t s
  else settleAlerts (t.members.foldl declareNotClosed s)

/-- RETRY_TIMER_EXPIRY (R150). The operand is the set's position in the list (log 23); a stopped timer
does not expire (log 3). -/
def execRetryTimerExpiry (position : Nat) (s : State) : Result :=
  match s.stop.tracking[position]? with
  | some t => .next (if t.timer.isSome then retryExpired position t s else s)
  | none => .next s

end Sys2Proof.Machine
end

