-- ==== Sys2Proof/Machine/Permit.lean ====
section
/-! DEFINITION. PERMIT_REPORT and PERMIT_SILENCE_EXPIRY (R87, R88). -/

namespace Sys2Proof.Machine

/-- The permit bits take new values; each fall on a flowing or waiting arm that needs its permit raises
PERMIT_LOST (R88). R88 gives the arms no order; the model takes ascending arm number (DESIGN CHOICE,
log 28). -/
def setPermits (bits : Byte) (timer : Timer) (s : State) : State :=
  let old := s.arms.permits
  let t := { s with arms := { s.arms with permits := bits, permitTimer := timer } }
  settleAlerts (allArms.foldl (fun u a =>
    if inSet old a && !inSet bits a && (u.armRec a).permitRequired && isRunning (u.phase a) then
      faultArm a .permitLost u
    else u) t)

/-- PERMIT_REPORT (R87): the reports are taken in the order they were handed over. -/
def execPermitReport (bits : Byte) (s : State) : Result :=
  let x := takeFrom (fun _ => true) s.arms.permitReports bits
  let t := { s with arms := { s.arms with permitReports := x.1 } }
  .next (if x.2 then setPermits bits (some t.mgmt.settings.permitLimit) t else t)

/-- PERMIT_SILENCE_EXPIRY (R87): every bit becomes false and the timer stays stopped. A stopped timer
does not expire (log 3). -/
def execPermitSilenceExpiry (s : State) : Result :=
  match s.arms.permitTimer with
  | some _ => .next (setPermits 0 none s)
  | none => .next s

end Sys2Proof.Machine
end

