-- ==== Sys2Proof/Machine/Dispatch.lean ====
section
/-! DEFINITION. Dispatch: one arm per command, each one direct call of its meaning. -/

namespace Sys2Proof.Machine

def exec (i : Instr) (s : State) : Host.Outcome State Fault Refusal :=
  match i with
  | .powerOn straps estopAsserted => Sys2Proof.Machine.execPowerOn straps estopAsserted s
  | .receiveUnit port octets => Sys2Proof.Machine.execReceiveUnit port octets s
  | .badRequestAnswer h kind => Sys2Proof.Machine.execBadRequestAnswer h kind s
  | .relayFrame f => Sys2Proof.Machine.execRelayFrame f s
  | .fieldReport port f => Sys2Proof.Machine.execFieldReport port f s
  | .transmissionStart port => Sys2Proof.Machine.execTransmissionStart port s
  | .frameDeparture port => Sys2Proof.Machine.execFrameDeparture port s
  | .tableRead h table index => Sys2Proof.Machine.execTableRead h table index s
  | .tableWriteNodeMap h index r => Sys2Proof.Machine.execTableWriteNodeMap h index r s
  | .tableWriteRelayFilter h index r => Sys2Proof.Machine.execTableWriteRelayFilter h index r s
  | .tableWriteMeter h index r => Sys2Proof.Machine.execTableWriteMeter h index r s
  | .tableWriteInjector h index r => Sys2Proof.Machine.execTableWriteInjector h index r s
  | .tableWriteRecipe h index r => Sys2Proof.Machine.execTableWriteRecipe h index r s
  | .tableWriteArm h index r => Sys2Proof.Machine.execTableWriteArm h index r s
  | .tableWriteSettings h index r => Sys2Proof.Machine.execTableWriteSettings h index r s
  | .tableWriteHeader h index r => Sys2Proof.Machine.execTableWriteHeader h index r s
  | .authorize h arm batchId recipe preset => Sys2Proof.Machine.execAuthorize h arm batchId recipe preset s
  | .cancel h arm => Sys2Proof.Machine.execCancel h arm s
  | .start h arm => Sys2Proof.Machine.execStart h arm s
  | .pause h arm => Sys2Proof.Machine.execPause h arm s
  | .resume h arm => Sys2Proof.Machine.execResume h arm s
  | .stop h arm => Sys2Proof.Machine.execStop h arm s
  | .faultReset h arm => Sys2Proof.Machine.execFaultReset h arm s
  | .release h arm => Sys2Proof.Machine.execRelease h arm s
  | .armStatus h arm part first => Sys2Proof.Machine.execArmStatus h arm part first s
  | .engineStatus h part clear => Sys2Proof.Machine.execEngineStatus h part clear s
  | .alertSnapshot h start => Sys2Proof.Machine.execAlertSnapshot h start s
  | .alertAck h mark => Sys2Proof.Machine.execAlertAck h mark s
  | .recordFetch h => Sys2Proof.Machine.execRecordFetch h s
  | .recordAck h batchId => Sys2Proof.Machine.execRecordAck h batchId s
  | .mode h mode force => Sys2Proof.Machine.execMode h mode force s
  | .restart h confirm => Sys2Proof.Machine.execRestart h confirm s
  | .laneStop h arms => Sys2Proof.Machine.execLaneStop h arms s
  | .meterSample m o => Sys2Proof.Machine.execMeterSample m o s
  | .valveReport r => Sys2Proof.Machine.execValveReport r s
  | .laneStopValveReport r => Sys2Proof.Machine.execLaneStopValveReport r s
  | .strokeReport r => Sys2Proof.Machine.execStrokeReport r s
  | .permitReport bits => Sys2Proof.Machine.execPermitReport bits s
  | .permitSilenceExpiry => Sys2Proof.Machine.execPermitSilenceExpiry s
  | .meterSilenceExpiry slot => Sys2Proof.Machine.execMeterSilenceExpiry slot s
  | .closeLimitExpiry arm => Sys2Proof.Machine.execCloseLimitExpiry arm s
  | .valveResponseExpiry arm stream => Sys2Proof.Machine.execValveResponseExpiry arm stream s
  | .strokeTimerExpiry channel => Sys2Proof.Machine.execStrokeTimerExpiry channel s
  | .waitTimerExpiry arm => Sys2Proof.Machine.execWaitTimerExpiry arm s
  | .spacingTimerExpiry => Sys2Proof.Machine.execSpacingTimerExpiry s
  | .servingPass => Sys2Proof.Machine.execServingPass s
  | .yieldAnswer arm => Sys2Proof.Machine.execYieldAnswer arm s
  | .retryTimerExpiry position => Sys2Proof.Machine.execRetryTimerExpiry position s
  | .estopAsserted => Sys2Proof.Machine.execEstopAsserted s
  | .estopReleased => Sys2Proof.Machine.execEstopReleased s
  | .engineSecondsTick => Sys2Proof.Machine.execEngineSecondsTick s

end Sys2Proof.Machine
end

