-- ==== Sys2Proof/WellFormed.lean ====
section
/-! DEFINITION. Well-formed commands: the operands that the spec's own paths can hand to a step. -/

namespace Sys2Proof

open Machine

/-- A frame that a receive framer can have passed (R2): a payload that fits, its CRC, no destination
0xFF. -/
def receivedFrame (f : Frame) : Bool :=
  decide (f.payload.length ≤ Config.maxPayload) && decide (f.crc = crc (Frame.body f)) &&
    decide (f.dst ≠ 0xFF#8)

/-- A request comes from a controller (R3). -/
def headOk (h : ReqHead) : Bool := isController h.src

/-- A relay frame comes from a controller and goes to a field node or to all of them (R3, R4). -/
def relayedFrame (f : Frame) : Bool :=
  receivedFrame f && isController f.src && (decide (f.dst = 0x00#8) || isFieldNode f.dst)

/-- A field report comes from a field node and goes to an engine (R3, R7). -/
def reportFrame (f : Frame) : Bool :=
  receivedFrame f && isFieldNode f.src && isEngine f.dst

/-- A report of a station or head carries a field node address (R26). -/
def stationReportOk (r : ValveRpt) : Bool := isFieldNode r.station

def headReportOk (r : StrokeRpt) : Bool := isFieldNode r.source

/-- Well-formed commands. The operands not checked here are of types that hold only their range. -/
def Instr.wf : Instr → Bool
  | .powerOn _ _ => true
  | .receiveUnit _ _ => true
  | .badRequestAnswer h _ => headOk h
  | .relayFrame f => relayedFrame f
  | .fieldReport _ f => reportFrame f
  | .transmissionStart _ => true
  | .frameDeparture _ => true
  | .tableRead h _ _ => headOk h
  | .tableWriteNodeMap h _ _ => headOk h
  | .tableWriteRelayFilter h _ _ => headOk h
  | .tableWriteMeter h _ _ => headOk h
  | .tableWriteInjector h _ _ => headOk h
  | .tableWriteRecipe h _ _ => headOk h
  | .tableWriteArm h _ _ => headOk h
  | .tableWriteSettings h _ _ => headOk h
  | .tableWriteHeader h _ _ => headOk h
  | .authorize h _ _ _ _ => headOk h
  | .cancel h _ => headOk h
  | .start h _ => headOk h
  | .pause h _ => headOk h
  | .resume h _ => headOk h
  | .stop h _ => headOk h
  | .faultReset h _ => headOk h
  | .release h _ => headOk h
  | .armStatus h _ _ _ => headOk h
  | .engineStatus h _ _ => headOk h
  | .alertSnapshot h _ => headOk h
  | .alertAck h _ => headOk h
  | .recordFetch h => headOk h
  | .recordAck h _ => headOk h
  | .mode h _ _ => headOk h
  | .restart h _ => headOk h
  | .laneStop h _ => headOk h
  | .meterSample _ _ => true
  | .valveReport r => stationReportOk r
  | .laneStopValveReport r => stationReportOk r
  | .strokeReport r => headReportOk r
  | .permitReport _ => true
  | .permitSilenceExpiry => true
  | .meterSilenceExpiry _ => true
  | .closeLimitExpiry _ => true
  | .valveResponseExpiry _ _ => true
  | .strokeTimerExpiry _ => true
  | .waitTimerExpiry _ => true
  | .spacingTimerExpiry => true
  | .servingPass => true
  | .yieldAnswer _ => true
  | .retryTimerExpiry position => decide (position < 16)
  | .estopAsserted => true
  | .estopReleased => true
  | .engineSecondsTick => true

end Sys2Proof
end

