-- ==== Sys2Proof/Safety.lean ====
section
/-! DEFINITION. The laws of the device as predicates on State, and the words the statements use. -/

namespace Sys2Proof.Machine

/-! ## Invariants -/

/-- Two entries of the Alert List with the same kind and subject. -/
def sameEntry (x y : Alert) : Bool := decide (x.kind = y.kind ∧ x.subject = y.subject)

/-- No two entries share kind and subject (R162). -/
def distinctEntries : List Alert → Bool
  | [] => true
  | x :: xs => xs.all (fun y => !sameEntry x y) && distinctEntries xs

/-- The outputs follow what they are judged from (R151, R166), and the Alert List keeps the law of
R162. -/
def OutputsOk (s : State) : Prop :=
  s.stop.trip = tripLine s.stop.marks ∧
    s.rep.alertOut = alertLine s.mgmt.settings.pinLevel s.rep.alerts ∧
    s.rep.alerts.length ≤ Config.alertSize ∧ distinctEntries s.rep.alerts = true

/-- A context holds a reserved slot exactly in an active state (R45, R69), and a batch outside IDLE
(R48). -/
def ctxOk (c : ArmCtx) : Prop :=
  c.reservedSlot = isActive c.state ∧ c.batch.isSome = decide (c.state ≠ .idle)

/-- The arms that hold a reserved slot. -/
def reservingArms (s : State) : List Arm := allArms.filter (fun a => (s.ctxOf a).reservedSlot)

/-- The law of R45: records and reserved slots together never exceed 32, and the reservation count is
the number of arms that hold a slot. -/
def StoreOk (s : State) : Prop :=
  (∀ a, ctxOk (s.ctxOf a)) ∧ s.rep.reserved = (reservingArms s).length ∧
    s.rep.records.length + s.rep.reserved ≤ Config.storeSize

/-- The law of R118: the wait queue holds each arm at most once, and exactly the arms in WAITING. -/
def QueueOk (s : State) : Prop :=
  s.header.queue.Nodup ∧ ∀ a, a ∈ s.header.queue ↔ s.phase a = .waiting

/-- A channel keeps the law of R132. -/
def runOk (r : InjRun) : Prop :=
  r.owed0 ≤ Config.owedCap ∧ r.owed1 ≤ Config.owedCap ∧ r.missCount ≤ Config.missLimit ∧
    (r.state = .stroking ↔ r.inFlight.isSome = true) ∧
    (r.state = .isolated ∨ r.state = .unconfigured → r.owed0 = 0 ∧ r.owed1 = 0)

/-- The law of R132: owed counts lie in 0 to 15, a stroke is in flight exactly in STROKING, and an
ISOLATED channel owes nothing. -/
def ChannelsOk (s : State) : Prop := ∀ c, runOk (s.injRun c)

/-- A counter record within its saturation (R15). -/
def countersOk (c : Counters) : Prop :=
  c.crcErrors ≤ Config.max16 ∧ c.formatErrors ≤ Config.max16 ∧ c.unknownSource ≤ Config.max16 ∧
    c.misdirected ≤ Config.max16 ∧ c.copiesDropped ≤ Config.max16

/-- A framer stores 63 octets at most (R1). -/
def framerOk : Framer → Prop
  | .waiting => True
  | .collecting os _ => os.length ≤ Config.maxUnit

/-- Counters saturate (R15, R161), framers store 63 octets at most (R1), a Port U with reservations
kept holds 24 frames and slots at most (R9), and a normal queue 16 frames (R12). -/
def PortsOk (s : State) : Prop :=
  (countersOk s.portU.counters ∧ s.portU.requestsDropped ≤ Config.max16 ∧
    countersOk s.d0.counters ∧ countersOk s.d1.counters ∧ s.mgmt.seconds ≤ Config.max32) ∧
    (framerOk s.portU.framer ∧ framerOk s.d0.framer ∧ framerOk s.d1.framer) ∧
    heldPlusReserved s ≤ Config.queueUSize ∧
    s.d0.normal.length ≤ Config.normalSize ∧ s.d1.normal.length ≤ Config.normalSize

/-- A grant record of an arm in a state p: shares within the request, held only in the flowing states
and CLOSING, and at least the minimum while a yield is pending (R116, R124, R125). -/
def grantOk (g : Grant) (p : ArmPhase) : Prop :=
  g.granted ≤ g.sReq ∧ (0 < g.granted → isMoving p = true) ∧
    (g.yieldPending = true → g.sMin ≤ g.granted)

/-- The law of R116: the granted sum never exceeds the effective capacity, and no arm's granted shares
exceed its requested shares. -/
def GrantsOk (s : State) : Prop :=
  grantedSum s ≤ s.header.effective ∧ ∀ a, grantOk (s.grantOf a) (s.phase a)

/-- A Valve Order Channel waits for a slot only while no order is in flight, and counts one expiry at
most (R102, R104, R109). -/
def ValvesOk (s : State) : Prop :=
  ∀ a st, (s.chan a st).expiryCount ≤ 1 ∧
    ((s.chan a st).inFlight.isSome = true → (s.chan a st).pendingSlot = none)

/-- The batch ids that R44 keeps apart: those of the batches that hold a reserved slot, and those of the
records. -/
def heldIds (s : State) : List Word32 :=
  (reservingArms s).filterMap (fun a => (s.ctxOf a).batch.map (fun b => b.id)) ++
    s.rep.records.map (fun x => x.id)

/-- The law of R44: no batch id is held twice. -/
def IdsOk (s : State) : Prop := (heldIds s).Nodup

/-- The tables keep what the binding of lines rests on: the codes of a valid recipe are distinct (R38),
and the outlets of a channel name different arms (R130). -/
def LineTablesOk (s : State) : Prop :=
  (∀ i, (sel s.arms.recipes i).valid = true →
    ((sel s.arms.recipes i).lines.map (fun l => l.code)).Nodup) ∧
  (∀ c a, (s.injRec c).out0 = some a → (s.injRec c).out1 ≠ some a)

/-- A line of an arm stands at an outlet of a channel. -/
def HasLine (s : State) (a : Arm) (c : Channel) (outlet : Bool) : Prop :=
  ∃ l ∈ (s.ctxOf a).lines, l.channel = c ∧ l.outlet = outlet

/-- The law of R134 for an arm with an open batch: each line stands at the outlet that names the arm, no
two on one channel, and its counts add up to the strokes due. -/
def LinesAddUp (s : State) (a : Arm) : Prop :=
  ((s.ctxOf a).lines.map (fun l => l.channel)).Nodup ∧
  ∀ l ∈ (s.ctxOf a).lines, (s.injRec l.channel).outletArm l.outlet = some a ∧
    l.delivered + (s.injRun l.channel).owed l.outlet + l.dropped = l.due

/-- Strokes are owed only to a line of an arm in a flowing state or CLOSING (R143), and a stroke in
flight is counted where its charge says (R132). -/
def OwedOk (s : State) (c : Channel) : Prop :=
  (∀ o, 0 < (s.injRun c).owed o → ∃ a, (s.injRec c).outletArm o = some a ∧
    isMoving (s.phase a) = true ∧ HasLine s a c o) ∧
  (∀ k, (s.injRun c).inFlight = some k →
    (k.charge = .owed → 0 < (s.injRun c).owed k.outlet) ∧
    (k.charge = .dropped → ∃ a, (s.injRec c).outletArm k.outlet = some a ∧ s.phase a ≠ .idle ∧
      s.phase a ≠ .ready ∧ (isActive (s.phase a) = true →
        ∃ l ∈ (s.ctxOf a).lines, l.channel = c ∧ l.outlet = k.outlet ∧ 0 < l.dropped)))

/-- The law of R134, with what it rests on. -/
def LinesOk (s : State) : Prop :=
  LineTablesOk s ∧ (∀ a, isActive (s.phase a) = true → LinesAddUp s a) ∧ ∀ c, OwedOk s c

/-! ## Words of the statements: frames of Port U -/

/-- The command that acts on a frame waiting at Port U. -/
def commandOf : UItem → Instr
  | .relay f => .relayFrame f
  | .request h (.bad k) => .badRequestAnswer h k
  | .request h (.tableRead t i) => .tableRead h t i
  | .request h (.writeNode i r) => .tableWriteNodeMap h i r
  | .request h (.writeFilter i r) => .tableWriteRelayFilter h i r
  | .request h (.writeMeter i r) => .tableWriteMeter h i r
  | .request h (.writeInjector i r) => .tableWriteInjector h i r
  | .request h (.writeRecipe i r) => .tableWriteRecipe h i r
  | .request h (.writeArm i r) => .tableWriteArm h i r
  | .request h (.writeSettings i r) => .tableWriteSettings h i r
  | .request h (.writeHeader i r) => .tableWriteHeader h i r
  | .request h (.authorize a b n p) => .authorize h a b n p
  | .request h (.cancel a) => .cancel h a
  | .request h (.start a) => .start h a
  | .request h (.pause a) => .pause h a
  | .request h (.resume a) => .resume h a
  | .request h (.stop a) => .stop h a
  | .request h (.faultReset a) => .faultReset h a
  | .request h (.release a) => .release h a
  | .request h (.armStatus a p f) => .armStatus h a p f
  | .request h (.engineStatus p c) => .engineStatus h p c
  | .request h (.alertSnapshot n) => .alertSnapshot h n
  | .request h (.alertAck m) => .alertAck h m
  | .request h .recordFetch => .recordFetch h
  | .request h (.recordAck b) => .recordAck h b
  | .request h (.mode m f) => .mode h m f
  | .request h (.restart c) => .restart h c
  | .request h (.laneStop arms) => .laneStop h arms

/-- A waiting frame is the next that its block takes (R156, section 2.4; for RESTART log 14). -/
def IsNext (s : State) (x : UItem) : Prop := (aheadOf x s.portU.waiting).head? = some x

/-- A request is the next the Management Unit takes. -/
abbrev NextRequest (s : State) (h : ReqHead) (r : Request) : Prop := IsNext s (.request h r)

/-- The state in which a waiting frame of Port U is acted on: its reserved slot is given back, to be
filled by its answer (R5, R6). -/
def State.take (s : State) (x : UItem) : State :=
  { s with portU := { s.portU with waiting := dropItem x s.portU.waiting } }

/-- Port U after a frame has been taken and answered: the slot is given back and the answer is the
last frame of the queue (R5, R14). -/
def Replied (s t : State) (x : UItem) (f : Frame) : Prop :=
  t.portU = { s.portU with
    waiting := dropItem x s.portU.waiting, queue := s.portU.queue ++ [f] }

/-- The RESULT frame of a request (section 11.5). -/
def resultFrame (s : State) (h : ReqHead) (kind : Byte) (c : Code) : Frame :=
  answerFrame s h kindResult [kind, Code.octet c]

/-- A request is carried out and answered DONE. -/
def RepliedDone (s t : State) (h : ReqHead) (r : Request) : Prop :=
  Replied s t (.request h r) (resultFrame s h (Request.kindCode r) .done)

/-- A request that is refused with a code changes nothing (R156). -/
def Refuses (s : State) (h : ReqHead) (r : Request) (c : Code) : Prop :=
  exec (commandOf (.request h r)) s =
    .next (result h (Request.kindCode r) c (s.take (.request h r)))

/-- A request is answered DONE and leaves the state u of the blocks. -/
def CarriesOut (s : State) (h : ReqHead) (r : Request) (u : State → State) : Prop :=
  exec (commandOf (.request h r)) s =
    .next (result h (Request.kindCode r) .done (u (s.take (.request h r))))

/-! ## Words of the statements: bindings -/

/-- A field node is bound to an arm (R19). -/
def BoundTo (s : State) (n : Byte) (a : Arm) : Prop :=
  let e := nodeAt s n
  e.valid = true ∧
    (((streamOfMeter e.role).isSome = true ∨ (streamOfValve e.role).isSome = true) ∧ e.arm = a ∨
     e.role = .injector ∧ (s.injRec e.channel).valid = true ∧ (s.injRec e.channel).node = n ∧
       ((s.injRec e.channel).out0 = some a ∨ (s.injRec e.channel).out1 = some a))

/-- A destination is a node bound to an active arm, or 0x00 while some node is (R30, R33). -/
def ReachesActiveArm (s : State) (dst : Byte) : Prop :=
  ∃ n a, (1 ≤ n.toNat ∧ n.toNat ≤ 0xDF) ∧ (dst = 0x00 ∨ dst = n) ∧ BoundTo s n a ∧
    isActive (s.phase a) = true

/-- A Relay Filter matches a frame (R33). -/
def Matches (x : Filter) (f : Frame) : Prop :=
  x.enabled = true ∧ f.dst &&& x.mask = x.address &&& x.mask ∧
    ∃ n, kindClass f.kind = some n ∧ x.kinds.getLsbD n = true

/-- The report kind and payload length that a role's node sends (R25, section 11.3). -/
def reportShape : Role → Option (Byte × Nat)
  | .meterGasoline | .meterEthanol => some (0x10, 6)
  | .valveGasoline | .valveEthanol => some (0x11, 4)
  | .injector => some (0x12, 2)
  | .permit => some (0x13, 1)
  | .passive => none

/-- A meter or valve role, which names an arm (R18). -/
def namesArm (r : Role) : Prop :=
  r = .meterGasoline ∨ r = .meterEthanol ∨ r = .valveGasoline ∨ r = .valveEthanol

def isMeterRole (r : Role) : Prop := r = .meterGasoline ∨ r = .meterEthanol

def isValveRole (r : Role) : Prop := r = .valveGasoline ∨ r = .valveEthanol

/-- A new entry at an address is in conflict with the valid entries at the other addresses (R21). -/
def Conflicts (s : State) (addr : Byte) (e : NodeEntry) : Prop :=
  e.valid = true ∧ ∃ n, (1 ≤ n.toNat ∧ n.toNat ≤ 0xDF) ∧ n ≠ addr ∧ (nodeAt s n).valid = true ∧
    (namesArm e.role ∧ (nodeAt s n).role = e.role ∧ (nodeAt s n).arm = e.arm ∨
     isMeterRole e.role ∧ isMeterRole (nodeAt s n).role ∧ (nodeAt s n).slot = e.slot ∨
     e.role = .injector ∧ (nodeAt s n).role = .injector ∧ (nodeAt s n).channel = e.channel ∨
     e.role = .permit ∧ (nodeAt s n).role = .permit)

/-- The law of R21: no valid entry of the Node Map is in conflict with another. -/
def BindingsOk (s : State) : Prop :=
  ∀ n : Byte, 1 ≤ n.toNat ∧ n.toNat ≤ 0xDF → ¬ Conflicts s n (nodeAt s n)

/-- A valid entry of the Node Map gives an arm a node of a role. -/
def Binds (s : State) (n : Byte) (r : Role) (a : Arm) : Prop :=
  (1 ≤ n.toNat ∧ n.toNat ≤ 0xDF) ∧ (nodeAt s n).valid = true ∧ (nodeAt s n).role = r ∧
    (nodeAt s n).arm = a

/-- The law of R146: a station belongs to one tracking set at most, and a set has a member, a retry count
of 3 at most, and valve stations of the Node Map alone. -/
def TrackingOk (s : State) : Prop :=
  (s.stop.tracking.flatMap (fun x => x.members)).Nodup ∧
  ∀ x ∈ s.stop.tracking, x.members ≠ [] ∧ x.retry ≤ Config.retryLimit ∧
    ∀ n ∈ x.members, ∃ st a, Binds s n (valveRole st) a

/-- A write changes the binding of an entry (R22). -/
def Rebinds (old new : NodeEntry) : Prop :=
  old.valid ≠ new.valid ∨ old.role ≠ new.role ∨ old.port ≠ new.port ∨
    (namesArm old.role ∨ namesArm new.role) ∧ old.arm ≠ new.arm ∨
    (isMeterRole old.role ∨ isMeterRole new.role) ∧ old.slot ≠ new.slot ∨
    (old.role = .injector ∨ new.role = .injector) ∧ old.channel ≠ new.channel

/-- A valid entry at an address involves something in use (R22). -/
def Involves (s : State) (addr : Byte) (e : NodeEntry) : Prop :=
  e.valid = true ∧
    (namesArm e.role ∧ isActive (s.phase e.arm) = true ∨
     e.role = .injector ∧
       ((∃ a, ((s.injRec e.channel).out0 = some a ∨ (s.injRec e.channel).out1 = some a) ∧
          isActive (s.phase a) = true) ∨
        (s.injRun e.channel).inFlight ≠ none ∨ 0 < (s.injRun e.channel).owed0 ∨
        0 < (s.injRun e.channel).owed1) ∨
     e.role = .permit ∧ (∃ a, isActive (s.phase a) = true) ∨
     isValveRole e.role ∧ (isTracked s addr = true ∨ isMarked s addr = true))

/-! ## Words of the statements: table records as transferred -/

/-- The range of a table's index (R18, R32, R51, R130, R37, R35, R158, R114). -/
def IndexFits (t : TableId) (i : Byte) : Prop :=
  match t with
  | .nodeMap => 1 ≤ i.toNat ∧ i.toNat ≤ 0xDF
  | .relayFilter => i.toNat ≤ 7
  | .meter => i.toNat ≤ 15
  | .injector => i.toNat ≤ 11
  | .recipe => i.toNat ≤ 31
  | .arm => i.toNat ≤ 7
  | .settings => i = 0
  | .header => i = 0

/-- A number lies between two bounds. -/
def Within (lo hi n : Nat) : Prop := lo ≤ n ∧ n ≤ hi

/-- The fields of a NODE MAP record lie in their ranges (R18, R20). -/
def NodeFits (r : RawNode) : Prop :=
  r.valid.toNat ≤ 1 ∧ r.role.toNat ≤ 6 ∧ r.arm.toNat ≤ 7 ∧ r.slot.toNat ≤ 15 ∧
    r.channel.toNat ≤ 11 ∧ r.port.toNat ≤ 1 ∧ r.copyUp.toNat ≤ 1

/-- A METER record passes order 2 of R52. -/
def MeterFits (r : RawMeter) : Prop :=
  let bands := r.bands.toList.take r.bandCount.toNat
  r.valid.toNat ≤ 1 ∧ r.bandCount.toNat ≤ 5 ∧
    (r.valid = 1 → Within 1 9999999 r.k.toNat ∧ r.format.toNat ≤ 2 ∧ 1 ≤ r.bandCount.toNat ∧
      (∀ b ∈ bands, Within 1 6000 b.bound.toNat ∧ Within 90000 110000 b.factor.toNat) ∧
      bands.Pairwise (fun x y => x.bound.toNat < y.bound.toNat) ∧ 1 ≤ r.surge.toNat ∧
      Within 100 10000 r.silence.toNat)

/-- A field of an INJECTOR record is in its range, or 0 where the record is written with valid = no
(R131). -/
def FieldFits (r : RawInjector) (lo hi n : Nat) : Prop := Within lo hi n ∨ r.valid = 0 ∧ n = 0

/-- An INJECTOR record passes order 2 of R131. -/
def InjectorFits (r : RawInjector) : Prop :=
  r.valid.toNat ≤ 1 ∧ (r.out0 = 0xFF ∨ r.out0.toNat ≤ 7) ∧ (r.out1 = 0xFF ∨ r.out1.toNat ≤ 7) ∧
    (r.out0 ≠ 0xFF → r.out0 ≠ r.out1) ∧ r.policy.toNat ≤ 1 ∧ FieldFits r 1 0xDF r.node.toNat ∧
    FieldFits r 1 255 r.code.toNat ∧ FieldFits r 1 5000 r.stroke.toNat ∧
    FieldFits r 2 15 r.pace.toNat ∧ FieldFits r 100 5000 r.timeLimit.toNat ∧
    r.check.toNat ≤ 6000

/-- A RECIPE record keeps the rules of R38, or R39 where it is written with valid = no. -/
def RecipeFits (r : RawRecipe) : Prop :=
  let lines := r.lines.toList.take r.lineCount.toNat
  r.valid.toNat ≤ 1 ∧ r.lineCount.toNat ≤ 4 ∧
    (r.valid = 1 → r.ratio.toNat ≤ 900 ∧ Within 1 6000 r.startFlow.toNat ∧
      Within 1 6000 r.bulkFlow.toNat ∧ Within 1 6000 r.topFlow.toNat ∧
      r.startVolume.toNat ≤ 10000000 ∧ Within 1 10000000 r.taperVolume.toNat ∧
      r.closeAhead.toNat ≤ 9999999 ∧ Within 1 100000 r.trimBand.toNat ∧
      Within 1 100 r.trimStep.toNat ∧ r.trimLimit.toNat ≤ 1000 ∧ Within 1 100 r.devLimit.toNat ∧
      Within 2 15 r.devCount.toNat ∧
      (∀ l ∈ lines, 1 ≤ l.code.toNat ∧ Within 1 9999 l.dose.toNat ∧ l.mandatory.toNat ≤ 1) ∧
      r.startFlow.toNat ≤ r.bulkFlow.toNat ∧ r.topFlow.toNat ≤ r.bulkFlow.toNat ∧
      r.closeAhead.toNat < r.taperVolume.toNat ∧ (lines.map (fun l => l.code)).Nodup)

/-- The fields of the Engine Settings lie in their ranges (R158). -/
def SettingsFit (r : RawSettings) : Prop :=
  Within 0xF0 0xFE r.controller.toNat ∧ r.passUnknown.toNat ≤ 1 ∧ Within 1 3 r.pinLevel.toNat ∧
    Within 50 5000 r.response.toNat ∧ Within 1000 60000 r.closeLimit.toNat ∧
    Within 100 10000 r.permit.toNat ∧ Within 100 2000 r.retry.toNat

/-- The fields of the HEADER record lie in their ranges (R114). -/
def HeaderFits (r : RawHeader) : Prop :=
  r.capacity.toNat ≤ 64 ∧ Within 1 500 r.size.toNat ∧ r.policy.toNat ≤ 1 ∧
    Within 1000 600000 r.waitLimit.toNat ∧ r.spacing.toNat ≤ 10000

/-! ## Words of the statements: arm commands -/

/-- An arm command passes the checks of mode and index (R40, R49, R70). -/
def ArmReady (s : State) (index : Byte) (a : Arm) : Prop :=
  s.mgmt.mode = .run ∧ armOf index = some a ∧ (s.armRec a).enabled = true

/-- The arm index and the arm states in which a command is taken (R40, R49, R71, R76 to R78, R86,
R93). -/
def armCommand : Request → Option (Byte × (ArmCtx → Bool))
  | .authorize i _ _ _ => some (i, isIn .idle)
  | .cancel i => some (i, isIn .ready)
  | .start i => some (i, isIn .ready)
  | .pause i => some (i, takesPause)
  | .resume i => some (i, isIn .paused)
  | .stop i => some (i, takesStop)
  | .faultReset i => some (i, isIn .halted)
  | .release i => some (i, isIn .done)
  | _ => none

/-! ## Words of the statements: reports and events -/

/-- A sample is the next of its slot that the Meter Unit takes (section 4.3). -/
def NextSample (s : State) (m : Sample) : Prop :=
  (s.meter.samples.filter (fun x => decide (x.slot = m.slot))).head? = some m

/-- The state that has taken a sample from its list. -/
def State.takeSample (s : State) (m : Sample) : State :=
  { s with meter := { s.meter with samples := dropItem m s.meter.samples } }

/-- A report is the next of its station that the Blend Regulator takes (R26). -/
def NextValveReport (s : State) (r : ValveRpt) : Prop :=
  (s.reg.reports.filter (fun x => decide (x.station = r.station))).head? = some r

/-- A report is the next of its station that the Lane Stop Unit takes (R26). -/
def NextStopReport (s : State) (r : ValveRpt) : Prop :=
  (s.stop.reports.filter (fun x => decide (x.station = r.station))).head? = some r

/-- A report is the next of its head that the Injector Scheduler takes (R26). -/
def NextStrokeReport (s : State) (r : StrokeRpt) : Prop :=
  (s.inj.reports.filter (fun x => decide (x.source = r.source))).head? = some r

/-! ### The volume of a sample (R55, R58, R60, R61) -/

/-- The count of a sample in its format. -/
def countRead (s : State) (m : Sample) : Nat :=
  if (s.meterRec m.slot).format = 0 then m.count.toNat % 65536 else m.count.toNat

/-- The delta of an accepted sample that is no baseline. -/
def deltaRead (s : State) (m : Sample) : Nat :=
  let last := (s.meterRun m.slot).lastCount
  if (s.meterRec m.slot).format = 0 then (countRead s m + 65536 - last % 65536) % 65536
  else if (s.meterRec m.slot).format = 1 then (countRead s m + 16777216 - last % 16777216) % 16777216
  else countRead s m

/-- The volume of the delta, with the slot's remainder. -/
def volumeRead (s : State) (m : Sample) : Nat :=
  let r := s.meterRec m.slot
  let raw := deltaRead s m * 1000 * 60000 / (r.k * max m.interval.toNat 1)
  (deltaRead s m * bandFactor raw r.bands + (s.meterRun m.slot).remainder) / r.k

/-- The arm's context with the volume added to its stream's total (R63). -/
def ctxWithVolume (s : State) (m : Sample) : ArmCtx :=
  let c := s.ctxOf m.arm
  { c with
    g := if m.stream = .gasoline then min (c.g + volumeRead s m) 4294967295 else c.g
    e := if m.stream = .ethanol then min (c.e + volumeRead s m) 4294967295 else c.e }

/-- An in-order sample at its turn, on a valid slot, within the surge limit (R56, R59). -/
def InOrderSample (s : State) (m : Sample) : Prop :=
  NextSample s m ∧ (s.meterRec m.slot).valid = true ∧
    (∃ q, (s.meterRun m.slot).lastSeq = some q ∧ m.seq = q + 1) ∧
    deltaRead s m ≤ (s.meterRec m.slot).surge

/-! ### Evaluations and phases (R74, R98 to R101) -/

/-- The trim after a sample evaluation (R99). -/
def trimAfter (c : ArmCtx) : Int :=
  let r := c.recipe
  let error : Int := (c.e : Int) - (((c.g + c.e) * r.ratio / 1000 : Nat) : Int)
  let moved : Int := if error < -(r.trimBand : Int) then c.trim + r.trimStep
    else if (r.trimBand : Int) < error then c.trim - r.trimStep else c.trim
  if r.ratio = 0 then c.trim else max (-(r.trimLimit : Int)) (min moved r.trimLimit)

/-- The ratio error of a context in per-mille (R101). -/
def devOf (c : ArmCtx) : Nat :=
  (((c.e * 1000 / (c.g + c.e) : Nat) : Int) - (c.recipe.ratio : Int)).natAbs

/-- The volumes at which the deviation check is made (R101). -/
def DevChecked (c : ArmCtx) : Prop := c.recipe.startVolume ≤ c.g + c.e ∧ 0 < c.g + c.e

/-- The check finds a ratio error above the limit and the run count reaches the deviation count
(R101). -/
def DevFaults (c : ArmCtx) : Prop :=
  DevChecked c ∧ c.recipe.devLimit < devOf c ∧ c.recipe.devCount ≤ min (c.devRun + 1) 15

/-- The flow target and the demands that a context in a flowing state holds follow from its phase, its
trim and its pace hold, and the share cap of its grant record (R98, R100). -/
def FlowFollows (s : State) (a : Arm) (c : ArmCtx) : Prop :=
  let r := c.recipe
  let g := s.grantOf a
  let cap := if g.yieldPending then g.sMin else g.granted
  let f1 := match c.state with
    | .starting => r.startFlow
    | .filling => r.bulkFlow
    | _ => r.topFlow
  let f2 := if r.ratio = 0 then f1 else min f1 (cap * s.header.record.shareSize * 1000 / r.ratio)
  let f := if c.paceHold then min f2 r.topFlow else f2
  let fe : Int := max 0 (min (((f * r.ratio / 1000 : Nat) : Int) + c.trim) f)
  c.flow = f ∧ (c.ethDemand : Int) = (if r.ratio = 0 then 0 else fe) ∧ c.gasDemand = f - c.ethDemand

/-- The newest demand handed to a channel is the one it holds as its reference or as its latched demand
(R103, R104); a channel without a station holds none. -/
def Told (s : State) (a : Arm) (st : Stream) (d : Nat) : Prop :=
  let c := s.chan a st
  (∀ o, c.inFlight = some o → c.latched = if o.demand = d then none else some d) ∧
  (c.inFlight = none → c.pendingSlot ≠ none →
    c.latched = some d ∨ c.latched = none ∧ c.lastSent = some d) ∧
  (c.inFlight = none → c.pendingSlot = none → c.lastSent = some d ∨ station s a st = none)

/-- Both channels that the arm uses hold the demands of its context (R100). -/
def DemandsTold (s : State) (a : Arm) : Prop :=
  Told s a .gasoline (s.ctxOf a).gasDemand ∧
    ((s.ctxOf a).recipe.ratio ≠ 0 → Told s a .ethanol (s.ctxOf a).ethDemand)

/-! ### Closes (R81, R83) -/

/-- A waited valve of an arm: the gasoline valve, and with R above 0 the ethanol valve (R81). -/
def Waits (s : State) (a : Arm) (st : Stream) : Prop := st = .gasoline ∨ (s.ctxOf a).recipe.ratio ≠ 0

/-- A waited meter is settled, or silent and not waited for (R81). -/
def Settled (s : State) (a : Arm) (st : Stream) : Prop :=
  (match st with
   | .gasoline => (s.closeOf a).gasSettled
   | .ethanol => (s.closeOf a).ethSettled) = true ∨
  ∃ i, meterSlot s a st = some i ∧ (s.meterRun i).silent = true

/-- A close has completed by its reason: the arm is in the state of the reason, and an arm in DONE has
written its record from the context c (R83, R91). -/
def ClosedBy (s t : State) (a : Arm) (c : ArmCtx) (b : Batch) (why : CloseReason) : Prop :=
  (t.phase a = match why with
    | .theEnd => .done | .stop => .done | .pause => .paused | .fault => .halted) ∧
  (t.rep.records = s.rep.records ++ match why with
    | .theEnd => [recordOf a c b .complete s.mgmt.seconds]
    | .stop => [recordOf a c b .stopped s.mgmt.seconds]
    | .pause => [] | .fault => []) ∧
  (t.ctxOf a).closeReason = none ∧ t.closeOf a = .cleared ∧ (t.grantOf a).granted = 0 ∧
    (t.grantOf a).order = none ∧ (t.grantOf a).yieldPending = false

/-! ### Alerts -/

/-- The Alert List holds an unacknowledged entry of a kind on a subject. -/
def Alerted (s : State) (k : AlertKind) (j : Subject) : Prop :=
  ∃ x ∈ s.rep.alerts, x.kind = k ∧ x.subject = j ∧ x.acknowledged = false

/-! ### Strokes (R135, R139, R141) -/

/-- The pace hold of an arm as judged from its outlets' owed counts: set at a pace limit, cleared when
each is at or below half its limit, and otherwise as it was (R141). -/
def PaceFollows (s t : State) (a : Arm) : Prop :=
  let load (l : LineState) : Nat := (t.injRun l.channel).owed l.outlet
  let limit (l : LineState) : Nat := (t.injRec l.channel).pace
  let full : Prop := ∃ l ∈ (t.ctxOf a).lines, limit l ≤ load l
  let low : Prop := ∀ l ∈ (t.ctxOf a).lines, load l ≤ limit l / 2
  (full → (t.ctxOf a).paceHold = true) ∧ (¬ full → low → (t.ctxOf a).paceHold = false) ∧
    (¬ full → ¬ low → (t.ctxOf a).paceHold = (s.ctxOf a).paceHold)

/-- A channel whose stroke is resolved, with the run state x, serves on (R135): the outlet its policy
chooses gets a STROKE ORDER while its port has room, and the stroke-ready mark is set otherwise. -/
def ServesOn (s : State) (c : Channel) (x : InjRun) (t : State) : Prop :=
  let idle := { x with state := .available, inFlight := none }
  let next := chooseOutlet (s.injRec c).policy x
  (x.strokeReady = none → ∀ o addr e, next = some o → headBinding s c = some (addr, e) →
    ((s.portD e.port).normal.length < 16 →
      t.injRun c = { x with
        state := .stroking, lastServed := o, nextSeq := x.nextSeq + 1,
        inFlight := some { outlet := o, seq := x.nextSeq, flowAtOrder := outletFlow s c o,
                           charge := .owed, departed := false, timer := none } } ∧
      ∃ more, (t.portD e.port).normal = (s.portD e.port).normal ++
        { frame := mkFrame addr s.mgmt.ownAddr 0x21 x.nextSeq [if o then 1 else 0],
          owner := .strokeOrder c } :: more) ∧
    (16 ≤ (s.portD e.port).normal.length → t.injRun c = { idle with strokeReady := some e.port })) ∧
  (x.strokeReady ≠ none ∨ next = none ∨ headBinding s c = none → t.injRun c = idle)

/-- An arm with an open batch has a mandatory line on the channel (R139, R140). -/
def MandatoryOn (s : State) (c : Channel) (a : Arm) : Prop :=
  isActive (s.phase a) = true ∧ ∃ p ∈ (s.ctxOf a).lines.zip (s.ctxOf a).recipe.lines,
    p.1.channel = c ∧ p.2.mandatory = 1

/-- What a fault does to the state, the close reason and the fault code of an arm (R85), where the close
of an arm that starts to close does not complete at once. -/
def FaultTaken (s t : State) (a : Arm) (k : AlertKind) : Prop :=
  let c := s.ctxOf a
  let code := some (c.faultCode.getD k)
  (isRunning c.state = true → valveCondition s a = false → t.phase a = .closing ∧
    (t.ctxOf a).closeReason = some .fault ∧ (t.ctxOf a).faultCode = code ∧ (t.ctxOf a).flow = 0) ∧
  (c.state = .closing → t.phase a = .closing ∧ (t.ctxOf a).closeReason = some .fault ∧
    (t.ctxOf a).faultCode = if c.closeReason = some .fault then c.faultCode else code) ∧
  (c.state = .paused → t.phase a = .halted ∧ (t.ctxOf a).faultCode = code) ∧
  (c.state = .ready ∨ c.state = .halted → t.phase a = c.state ∧ (t.ctxOf a).faultCode = c.faultCode)

/-- A channel has been isolated (R139): it owes nothing and serves nothing, what it owed is dropped in the
lines of its outlets' arms, INJECTOR_NO_FLOW is raised, and ADDITIVE_LOST reaches each arm with a
mandatory line on it. Pace hold is judged afresh where owed strokes have moved (R141), and stays where none
have, unless the fault completes a close. -/
def Isolated (s : State) (c : Channel) (t : State) : Prop :=
  let x := s.injRun c
  let on (a : Arm) (u : State) : List LineState :=
    (u.ctxOf a).lines.filter (fun l => decide (l.channel = c))
  t.injRun c = { x with
    state := .isolated, owed0 := 0, owed1 := 0, missCount := 4, inFlight := none, strokeReady := none } ∧
  (∀ o a, (s.injRec c).outletArm o = some a → (s.injRec c).outletArm (!o) ≠ some a →
    on a t = (on a s).map (fun l => { l with dropped := l.dropped + x.owed o }) ∧
      (0 < x.owed o → PaceFollows s t a) ∧
      (x.owed o = 0 → valveCondition s a = false ∨ ¬ MandatoryOn s c a →
        (t.ctxOf a).paceHold = (s.ctxOf a).paceHold)) ∧
  (s.rep.alerts.length < 24 → Alerted t .injectorNoFlow (.channel c) ∧
    ∀ a, MandatoryOn s c a → Alerted t .additiveLost (.arm a)) ∧
  (∀ a, MandatoryOn s c a → FaultTaken s t a .additiveLost) ∧
  (∀ a, ¬ MandatoryOn s c a → t.phase a = s.phase a ∧
    (t.ctxOf a).closeReason = (s.ctxOf a).closeReason ∧ (t.ctxOf a).faultCode = (s.ctxOf a).faultCode)

/-- An arm closes for a fault: CLOSING with reason FAULT, targets 0, and the fault code set if it was
absent (R79, R85). -/
def closedByFault (c : ArmCtx) (k : AlertKind) : ArmCtx :=
  { c with
    state := .closing, closeReason := some .fault, faultCode := some (c.faultCode.getD k), flow := 0,
    ethDemand := 0, gasDemand := 0 }

/-- The commands that reports and expiries bring, and the Allocator's own events. -/
def isEvent : Instr → Bool
  | .meterSample .. | .valveReport .. | .laneStopValveReport .. | .strokeReport ..
  | .permitReport .. | .permitSilenceExpiry | .meterSilenceExpiry .. | .closeLimitExpiry ..
  | .valveResponseExpiry .. | .strokeTimerExpiry .. | .waitTimerExpiry .. | .spacingTimerExpiry
  | .servingPass | .yieldAnswer .. | .retryTimerExpiry .. => true
  | _ => false

/-! ## Words of the statements: what stays -/

/-- The node map and filters, the table records, and the mode, address, settings and seconds stay. -/
def KeepsConfiguration (s t : State) : Prop :=
  t.mgmt = s.mgmt ∧ t.relay = s.relay ∧ t.meter.table = s.meter.table ∧
    t.arms.table = s.arms.table ∧ t.arms.recipes = s.arms.recipes ∧
    t.header.record = s.header.record ∧ t.inj.table = s.inj.table

/-- The reports that wait at their owners, the waiting commands and the unassigned volumes stay. -/
def KeepsWaiting (s t : State) : Prop :=
  t.meter.samples = s.meter.samples ∧ t.arms.permitReports = s.arms.permitReports ∧
    t.reg.reports = s.reg.reports ∧ t.inj.reports = s.inj.reports ∧
    t.stop.reports = s.stop.reports ∧ t.pending = s.pending

/-- A D port keeps all it holds; frames may have joined the tail of its normal queue. -/
def KeepsPort (x y : PortD) : Prop :=
  y.framer = x.framer ∧ y.reports = x.reports ∧ y.urgent = x.urgent ∧ y.sending = x.sending ∧
    y.counters = x.counters ∧ ∃ more, y.normal = x.normal ++ more

/-- An arm keeps its context, its close, its valve channels and its watch. -/
def KeepsArm (b : Arm) (s t : State) : Prop :=
  t.ctxOf b = s.ctxOf b ∧ t.closeOf b = s.closeOf b ∧ (∀ st, t.chan b st = s.chan b st) ∧
    sel t.reg.watch b = sel s.reg.watch b ∧ (t.grantOf b).granted = (s.grantOf b).granted

/-- A stroke k of a channel was missed (R138, R139): counted at or above the check flow, its owed count
kept, no context touched, and the channel serves on; at the fourth counted miss the channel is
isolated. -/
def Missed (s : State) (c : Channel) (k : StrokeFlight) (t : State) : Prop :=
  let x := s.injRun c
  let n := if (s.injRec c).check ≤ k.flowAtOrder then min (x.missCount + 1) 4 else x.missCount
  (t.injRun c).missCount = n ∧
    (n ≠ 4 → (t.injRun c).owed0 = x.owed0 ∧ (t.injRun c).owed1 = x.owed1 ∧
      (t.injRun c).state ≠ .isolated ∧ (∀ a, KeepsArm a s t) ∧
      ServesOn s c { x with missCount := n } t) ∧
    (n = 4 → Isolated s c t)

/-- An entry of an urgent queue after an event: itself, or a broadcast whose arm set has grown (R10). -/
def GrowsTo (x y : StopFrame) : Prop :=
  y = x ∨ ∃ q arms more, x = .broadcast q arms ∧ y = .broadcast q (arms ||| more)

/-- The entries of an urgent queue stay in their order and others join its tail (R10). -/
def KeepsUrgent (x y : PortD) : Prop :=
  (∀ (i : Nat) (f : StopFrame), x.urgent[i]? = some f → ∃ g, y.urgent[i]? = some g ∧ GrowsTo f g) ∧
    (urgentBegun x = true → x.urgent ≠ [] → y.urgent.head? = x.urgent.head?)

/-- The Port of a D port. -/
def portOfD : DPort → Port
  | .d0 => .d0
  | .d1 => .d1

/-- The other D port. -/
def otherD : DPort → DPort
  | .d0 => .d1
  | .d1 => .d0

/-- The records a restart writes, one for each arm that holds a reserved slot, in ascending arm number
(R95). -/
def restartRecords (s : State) : List BatchRecord :=
  allArms.filterMap (fun a =>
    if (s.ctxOf a).reservedSlot then
      (s.ctxOf a).batch.map (fun b => recordOf a (s.ctxOf a) b .restart s.mgmt.seconds)
    else none)

/-- The records a forced STANDBY writes: for each arm in WAITING or PAUSED one with reason STOPPED, for each
in HALTED one with reason ABANDONED, in ascending arm number (R94, R91). -/
def modeStopRecords (s : State) : List BatchRecord :=
  allArms.filterMap (fun a =>
    let c := s.ctxOf a
    let why : Option EndReason := match c.state with
      | .waiting | .paused => some .stopped
      | .halted => some .abandoned
      | _ => none
    why.bind (fun w => c.batch.map (fun b => recordOf a c b w s.mgmt.seconds)))

/-- The order that a waiter places in a freed slot of a port; none when it declines (R13, R104,
R135). -/
def orderOf (s : State) (p : DPort) : Waiter → Option NormalFrame
  | .valve a st =>
    match (s.chan a st).latched, station s a st with
    | some d, some (addr, e) =>
      if (s.chan a st).pendingSlot = some p ∧ e.port = p then
        some { frame := mkFrame addr s.mgmt.ownAddr kindValveOrder (s.chan a st).nextSeq (be 2 d),
               owner := .valveOrder a st }
      else none
    | _, _ => none
  | .injector c =>
    match chooseOutlet (s.injRec c).policy (s.injRun c), headBinding s c with
    | some outlet, some (addr, e) =>
      if (s.injRun c).strokeReady = some p ∧ (s.injRun c).state = .available ∧ e.port = p then
        some { frame := mkFrame addr s.mgmt.ownAddr kindStrokeOrder (s.injRun c).nextSeq
                 [if outlet then 1#8 else 0#8],
               owner := .strokeOrder c }
      else none
    | _, _ => none

end Sys2Proof.Machine
end

