-- ==== Sys2Proof/Certificates/Slice0/Obligations.lean ====
section
/-! DEFINITION. The statements about the block, from the spec's numbered rules; nothing here is proved. -/

open Sys2Proof Sys2Proof.Machine

/-! ## The step -/

/-- A step takes the command at the front of the queue and answers what it does with the queue's rest. -/
def Obligations.FrontCommandRuns : Prop :=
  ∀ (c : Instr) (rest : List Instr) (s : State),
    step { s with pending := c :: rest } = exec c { s with pending := rest }

/-- Every command answers a next state in every state, and leaves the commands that wait behind it. -/
def Obligations.EveryCommandHasANextState : Prop :=
  ∀ (c : Instr) (s : State), ∃ t, exec c s = .next t ∧ t.pending = s.pending

/-! ## Power-on -/

/-- R154 and R16: the values every block takes at power-on, with ESTOP_N as sampled (R152). The two
broadcasts have taken stop sequences 0 and 1. -/
def Obligations.PowerOnValues : Prop :=
  ∀ (straps : BitVec 3) (asserted : Bool) (s : State), ∃ t,
    exec (.powerOn straps asserted) s = .next t ∧
    (t.mgmt = { ownAddr := 0xE0#8 + straps.setWidth 8, mode := .standby, settings := .initial,
                seconds := 0 } ∧
     t.portU = { framer := .waiting, waiting := [], queue := [], sending := none, counters := .zero,
                 requestsDropped := 0 } ∧
     t.d0 = { framer := .waiting, reports := [], urgent := [.broadcast 0 0xFF], normal := [],
              sending := none, counters := .zero } ∧
     t.d1 = { framer := .waiting, reports := [], urgent := [.broadcast 1 0xFF], normal := [],
              sending := none, counters := .zero }) ∧
    ((∀ i, sel t.relay.nodeMap i = .initial) ∧ (∀ i, sel t.relay.filters i = .initial) ∧
     (∀ i, t.meterRec i = .initial ∧ t.meterRun i = .cleared) ∧ t.meter.samples = [] ∧
     (∀ a, sel t.meter.unassigned a = 0)) ∧
    ((∀ a, t.armRec a = .initial ∧ t.ctxOf a = .idle ∧ t.closeOf a = .cleared) ∧
     (∀ i, sel t.arms.recipes i = .initial) ∧ t.arms.permits = 0 ∧ t.arms.permitTimer = none ∧
     t.arms.permitReports = []) ∧
    ((∀ a st, t.chan a st = .initial) ∧ (∀ a, sel t.reg.watch a = false) ∧ t.reg.reports = []) ∧
    (t.header.record = .initial ∧ t.header.effective = 0 ∧ t.header.pendingCap = none ∧
     (∀ a, t.grantOf a = .zero ∧ sel t.header.waitTimers a = .stopped) ∧ t.header.queue = [] ∧
     t.header.grantCounter = 0 ∧ t.header.spacing = none) ∧
    ((∀ c, t.injRec c = .initial ∧ t.injRun c = .initial) ∧ t.inj.reports = []) ∧
    (t.stop.tracking = [] ∧ (∀ i, sel t.stop.marks i = false) ∧ t.stop.stopSeq = 2 ∧
     t.stop.trip = false ∧ t.stop.estop = asserted ∧ t.stop.reports = []) ∧
    (t.rep.records = [] ∧ t.rep.reserved = 0 ∧ t.rep.lost = 0 ∧ t.rep.highestLost = 0 ∧
     t.rep.alerts =
       { kind := .powerUp, subject := .nobody, number := 1, acknowledged := false, present := false } ::
       (if asserted then
          [{ kind := .estop, subject := .nobody, number := 2, acknowledged := false,
             present := true }]
        else []) ∧
     t.rep.alertOut = asserted) ∧
    t.pending = s.pending

/-- The state after reset is the one that POWER_ON leaves with straps 0 and ESTOP_N deasserted (the model's
choice, log 4), and the laws of the device hold there. -/
def Obligations.ResetIsALawfulPowerOn : Prop :=
  (exec (.powerOn 0 false) State.reset = .next State.reset) ∧
  (OutputsOk State.reset ∧ StoreOk State.reset ∧ QueueOk State.reset ∧ GrantsOk State.reset ∧
     ChannelsOk State.reset ∧ ValvesOk State.reset ∧ PortsOk State.reset) ∧
  (IdsOk State.reset ∧ TrackingOk State.reset ∧ LinesOk State.reset) ∧ BindingsOk State.reset

/-! ## Laws that every step keeps -/

/-- R151, R162, R166: TRIP follows the not-closed marks, ALERT_N the Alert List, and the list keeps its
law, through every step. R146: a station belongs to one tracking set at most, and the sets keep their law,
through every step. -/
def Obligations.EveryStepKeepsTheOutputsAndTracking : Prop :=
  (∀ s t : State, OutputsOk s → step s = .next t → OutputsOk t) ∧
  (∀ s t : State, TrackingOk s → step s = .next t → TrackingOk t)

/-- R45, R48: the Record Store keeps its law through every step. R44: with it, no batch id is held by two
arms or records. The law of the wait queue is a premise, since a grant to a queued arm that is not WAITING
would break the contexts. -/
def Obligations.EveryStepKeepsTheRecordStore : Prop :=
  (∀ s t : State, QueueOk s → StoreOk s → step s = .next t → StoreOk t) ∧
  (∀ s t : State, QueueOk s → StoreOk s → IdsOk s → step s = .next t → IdsOk t)

/-- R118: the wait queue holds each arm at most once, and exactly the arms in WAITING, through every step.
R116, R124, R125: with it the granted sum stays within the effective capacity, each arm's shares within its
request, held only in the flowing states and CLOSING, and at least S_min while a yield is pending. -/
def Obligations.EveryStepKeepsTheQueueAndGrants : Prop :=
  (∀ s t : State, QueueOk s → step s = .next t → QueueOk t) ∧
  (∀ s t : State, QueueOk s → GrantsOk s → step s = .next t → GrantsOk t)

/-- R132: owed counts lie in 0 to 15, a stroke is in flight exactly in STROKING, and an ISOLATED channel owes
nothing, through every step. R102, R104: a Valve Order Channel waits for a slot only with no order in flight
and counts one expiry at most, through every step. -/
def Obligations.EveryStepKeepsTheChannels : Prop :=
  (∀ s t : State, ChannelsOk s → step s = .next t → ChannelsOk t) ∧
  (∀ s t : State, ValvesOk s → step s = .next t → ValvesOk t)

/-- R134: for every additive line of an open batch, strokes delivered plus strokes owed at the line's outlet
plus strokes dropped equals strokes due, through every step; with it the laws it rests on: strokes are owed
only to a line of an arm in a flowing state or CLOSING (R143), and a stroke in flight stands in the count its
charge names (R132). The strokes of an UNCONFIGURED channel are dropped: the model's choice (log 20). The laws of the wait queue and of the channels are premises. -/
def Obligations.EveryStepKeepsTheLineCounts : Prop :=
  ∀ s t : State, QueueOk s → ChannelsOk s → LinesOk s → step s = .next t → LinesOk t

/-- R1, R9, R12, R15: queues, framers and counters stay within their sizes through every step. R21: no two
valid entries of the Node Map give the same binding, through every step. -/
def Obligations.EveryStepKeepsThePortsAndBindings : Prop :=
  (∀ s t : State, PortsOk s → step s = .next t → PortsOk t) ∧
  (∀ s t : State, BindingsOk s → step s = .next t → BindingsOk t)

/-! ## Port U: turns, answers, encodings -/

/-- R5, R6, with the model's rule of turns (log 1): a frame behind others stays; one that arrives with
no slot to reserve counts REQUESTS_DROPPED; one that arrives with a slot joins those that wait, and with
none ahead of it is acted on as one that waited. R5: a management request has one of the twelve kinds and the
payload length of its kind; every other frame to the engine's address is answered RESULT BAD_REQUEST. -/
def Obligations.FramesAreAnsweredInTheirTurn : Prop :=
  (∀ (s : State) (x : UItem),
     (x ∈ s.portU.waiting → ¬ IsNext s x → exec (commandOf x) s = .next s) ∧
     (x ∉ s.portU.waiting → Config.queueUSize ≤ s.portU.queue.length + s.portU.waiting.length →
       exec (commandOf x) s = .next { s with portU := { s.portU with
         requestsDropped := min (s.portU.requestsDropped + 1) 65535 } }) ∧
     (x ∉ s.portU.waiting → s.portU.queue.length + s.portU.waiting.length < Config.queueUSize →
       aheadOf x s.portU.waiting ≠ [] →
       exec (commandOf x) s = .next { s with portU := { s.portU with
         waiting := s.portU.waiting ++ [x] } }) ∧
     (x ∉ s.portU.waiting → s.portU.queue.length + s.portU.waiting.length < Config.queueUSize →
       aheadOf x s.portU.waiting = [] →
       exec (commandOf x) s = exec (commandOf x) { s with portU := { s.portU with
         waiting := s.portU.waiting ++ [x] } })) ∧
  (∀ (kind : Byte) (p : List Byte) (r : Request), readRequest kind p = some r →
    0x80 ≤ kind.toNat ∧ kind.toNat ≤ 0x8B ∧ kind = Request.kindCode r ∧
      p.length = (Request.payload r).length) ∧
  (∀ f : Frame, readRequest f.kind f.payload = none → parseRequest f = .bad f.kind) ∧
  (∀ (s : State) (h : ReqHead) (kind : Byte), NextRequest s h (.bad kind) →
    exec (.badRequestAnswer h kind) s = .next (result h kind .badRequest (s.take (.request h (.bad kind)))))

/-- R5, R14: a RESULT goes from the engine's own address to the request's source, carries the request's sequence
and a CRC of its own, and joins the tail of the Port U queue; nothing else changes. R27: a copy-up differs from
its original in destination and CRC alone. R14: a STOP BROADCAST goes to 0x00 and a STOP ORDER to its station, a
VALVE ORDER to the station and a STROKE ORDER to the head it is placed for, each from the engine's own address
with its sequence and a CRC of its own; a demand above 65,535 would be sent as 65,535 (section 11.1). R2: a frame
the engine builds passes the receive checks and reads back as itself. -/
def Obligations.OutgoingFramesAreAddressed : Prop :=
  (∀ (h : ReqHead) (kind : Byte) (c : Code) (s : State),
     result h kind c s = { s with portU := { s.portU with queue := s.portU.queue ++
       [{ dst := h.src, src := s.mgmt.ownAddr, kind := 0xC0, seq := h.seq,
          payload := [kind, Code.octet c],
          crc := crc [h.src, s.mgmt.ownAddr, 0xC0, h.seq, 2, kind, Code.octet c] }] } }) ∧
  (∀ (s : State) (f : Frame),
     (copyUpOf s f).dst = s.mgmt.settings.controller ∧ (copyUpOf s f).src = f.src ∧
     (copyUpOf s f).kind = f.kind ∧ (copyUpOf s f).seq = f.seq ∧
     (copyUpOf s f).payload = f.payload ∧ (copyUpOf s f).crc = crc (Frame.body (copyUpOf s f))) ∧
  (∀ (own q n arms : Byte),
     stopFrame own (.broadcast q arms) =
       { dst := 0x00, src := own, kind := 0x23, seq := q, payload := [arms],
         crc := crc [0x00, own, 0x23, q, 1, arms] } ∧
     stopFrame own (.order q n) =
       { dst := n, src := own, kind := 0x22, seq := q, payload := [], crc := crc [n, own, 0x22, q, 0] }) ∧
  (∀ (s : State) (p : DPort) (n : Byte) (a : Arm) (st : Stream) (d : Nat),
     let own := s.mgmt.ownAddr
     let q := (s.chan a st).nextSeq
     let v := min d 65535
     let octets : List Byte := [BitVec.ofNat 8 (v / 256), BitVec.ofNat 8 v]
     ((sendValveOrder a st d n p s).portD p).normal = (s.portD p).normal ++
       [{ frame := { dst := n, src := own, kind := 0x20, seq := q, payload := octets,
                     crc := crc ([n, own, 0x20, q, 2] ++ octets) },
          owner := .valveOrder a st }]) ∧
  (∀ (s : State) (p : DPort) (n : Byte) (c : Channel) (o : Bool),
     let own := s.mgmt.ownAddr
     let q := (s.injRun c).nextSeq
     let outlet : Byte := if o then 1 else 0
     ((sendStroke c o n p s).portD p).normal = (s.portD p).normal ++
       [{ frame := { dst := n, src := own, kind := 0x21, seq := q, payload := [outlet],
                     crc := crc [n, own, 0x21, q, 1, outlet] },
          owner := .strokeOrder c }]) ∧
  (∀ (dst src kind seq : Byte) (payload : List Byte), payload.length ≤ 56 → dst ≠ 0xFF →
     checkUnit (Frame.octets (mkFrame dst src kind seq payload)) (7 + payload.length) =
       .ok (mkFrame dst src kind seq payload))

/-- Section 11.4, 11.6: the payload written for a management request is read back as that request. Section 11.6:
the octets a record is read back with are the ones it was written with; band and line slots beyond the count
read back as zeros. -/
def Obligations.RequestsAndRecordsReadBack : Prop :=
  (∀ r : Request, (∀ k, r ≠ .bad k) →
    readRequest (Request.kindCode r) (Request.payload r) = some r) ∧
  (∀ r x, nodeOf r = some x →
    nodeOctets x = [r.valid, r.role, r.arm, r.slot, r.channel, r.port, r.copyUp]) ∧
  (∀ r x, filterOf r = some x →
    filterOctets x = [r.enabled, r.address, r.mask, r.kinds, r.action]) ∧
  (∀ r x, meterOf r = some x →
    meterOctets x = [r.valid] ++ o24 r.k ++ [r.format, r.bandCount] ++ o16 r.surge ++
      o16 r.silence ++ (r.bands.toList.take r.bandCount.toNat).flatMap writeBand ++
      List.replicate (5 * (5 - r.bandCount.toNat)) 0) ∧
  (∀ r x, injectorOf r = some x →
    injectorOctets x = [r.valid, r.node, r.code] ++ o16 r.stroke ++
      [r.out0, r.out1, r.policy, r.pace] ++ o16 r.timeLimit ++ o16 r.check) ∧
  (∀ r x, recipeOf r = some x →
    recipeOctets x = [r.valid] ++ o16 r.ratio ++ o16 r.startFlow ++ o16 r.bulkFlow ++
      o16 r.topFlow ++ o32 r.startVolume ++ o32 r.taperVolume ++ o32 r.closeAhead ++
      o24 r.trimBand ++ [r.trimStep] ++ o16 r.trimLimit ++ [r.devLimit, r.devCount, r.lineCount] ++
      (r.lines.toList.take r.lineCount.toNat).flatMap writeLine ++
      List.replicate (4 * (4 - r.lineCount.toNat)) 0) ∧
  (∀ r x, armRecOf r = some x → armOctets x = [r.enabled, r.priority, r.permit, r.policy]) ∧
  (∀ r x, settingsOf r = some x →
    settingsOctets x = [r.controller, r.passUnknown, r.pinLevel] ++ o16 r.response ++
      o16 r.closeLimit ++ o16 r.permit ++ o16 r.retry) ∧
  (∀ r x, headerOf r = some x →
    headerOctets x = [r.capacity] ++ o16 r.size ++ [r.policy] ++ o24 r.waitLimit ++ o16 r.spacing)

/-! ## RECEIVE_UNIT -/

/-- R2: a unit of `os` after the start octet is judged by the four checks in their order; the first that
fails counts once at the receiving port, and a unit that passes all is a received frame. A unit past 63
octets stores 63 and counts as 64 (R1). -/
def Obligations.UnitsAreJudgedByFourChecks : Prop :=
  ∀ (s : State) (p : Port) (os : List Byte), framerOf s p = .waiting →
    let n := os.length
    let crcHolds := crc (os.take (n - 2)) = u16 os (n - 2)
    let lengthHolds := (octet os 4).toNat ≤ 56 ∧ n = 7 + (octet os 4).toNat
    ((n < 7 ∨ 63 < n) →
      exec (.receiveUnit p (0x7E :: os)) s = .next (countPort p .formatErrors s)) ∧
    (7 ≤ n → n ≤ 63 → ¬ crcHolds →
      exec (.receiveUnit p (0x7E :: os)) s = .next (countPort p .crcErrors s)) ∧
    (7 ≤ n → n ≤ 63 → crcHolds → ¬ lengthHolds →
      exec (.receiveUnit p (0x7E :: os)) s = .next (countPort p .formatErrors s)) ∧
    (7 ≤ n → n ≤ 63 → crcHolds → lengthHolds → octet os 0 = 0xFF →
      exec (.receiveUnit p (0x7E :: os)) s = .next (countPort p .formatErrors s)) ∧
    (7 ≤ n → n ≤ 63 → crcHolds → lengthHolds → octet os 0 ≠ 0xFF →
      exec (.receiveUnit p (0x7E :: os)) s = .next (receiveFrame p
        { dst := octet os 0, src := octet os 1, kind := octet os 2, seq := octet os 3,
          payload := (os.drop 5).take (octet os 4).toNat, crc := u16 os (n - 2) } s))

/-- R3, R4: on Port U a frame whose source is no controller counts UNKNOWN_SOURCE; otherwise the engine's own
address is a management request, 0x00 and the field nodes relay, another engine's address is ignored, any other
counts MISDIRECTED. R5, R6: a request or relay frame is admitted while held plus reserved is below 24,
and counts REQUESTS_DROPPED otherwise. R3, R7: on a D port a source that is no field node counts UNKNOWN_SOURCE; otherwise a frame
to the engine is a field report, one to a controller is passed through unchanged, any other counts MISDIRECTED.
R9: a copy joins the Port U queue while fewer than 20 slots are held or reserved, and counts COPIES_DROPPED on
Port U and on its D port otherwise. -/
def Obligations.FramesTakeTheirPath : Prop :=
  (∀ (s : State) (f : Frame), s.portU.framer = .waiting → receivedFrame f = true →
     let c := exec (.receiveUnit .u (0x7E :: Frame.octets f)) s
     let known := 0xF0 ≤ f.src.toNat ∧ f.src.toNat ≤ 0xFE
     (¬ known → c = .next (countU .unknownSource s)) ∧
     (known → f.dst = s.mgmt.ownAddr →
       c = .next (admitU (.request { src := f.src, seq := f.seq } (parseRequest f)) s)) ∧
     (known → f.dst ≠ s.mgmt.ownAddr → f.dst.toNat ≤ 0xDF → c = .next (admitU (.relay f) s)) ∧
     (known → f.dst ≠ s.mgmt.ownAddr → 0xE0 ≤ f.dst.toNat → f.dst.toNat ≤ 0xE7 → c = .next s) ∧
     (known → f.dst ≠ s.mgmt.ownAddr → 0xE8 ≤ f.dst.toNat → c = .next (countU .misdirected s))) ∧
  (∀ (s : State) (p : DPort) (f : Frame), (s.portD p).framer = .waiting → receivedFrame f = true →
     let c := exec (.receiveUnit (portOfD p) (0x7E :: Frame.octets f)) s
     let known := 0x01 ≤ f.src.toNat ∧ f.src.toNat ≤ 0xDF
     let controller := 0xF0 ≤ f.dst.toNat ∧ f.dst.toNat ≤ 0xFE
     (¬ known → c = .next (countD p .unknownSource s)) ∧
     (known → f.dst = s.mgmt.ownAddr → c = .next (s.setPortD p
       { s.portD p with reports := (s.portD p).reports ++ [f] })) ∧
     (known → f.dst ≠ s.mgmt.ownAddr → controller → c = .next (offerCopy p f s)) ∧
     (known → f.dst ≠ s.mgmt.ownAddr → ¬ controller → c = .next (countD p .misdirected s))) ∧
  (∀ (x : UItem) (s : State),
     (s.portU.queue.length + s.portU.waiting.length < 24 → admitU x s = { s with portU := { s.portU with
       waiting := s.portU.waiting ++ [x] } }) ∧
     (24 ≤ s.portU.queue.length + s.portU.waiting.length → admitU x s = { s with portU := { s.portU with
       requestsDropped := min (s.portU.requestsDropped + 1) 65535 } })) ∧
  (∀ (p : DPort) (f : Frame) (s : State),
     (s.portU.queue.length + s.portU.waiting.length < 20 →
       offerCopy p f s = { s with portU := { s.portU with queue := s.portU.queue ++ [f] } }) ∧
     (20 ≤ s.portU.queue.length + s.portU.waiting.length →
       let t := offerCopy p f s
       t.portU = { s.portU with counters := { s.portU.counters with
         copiesDropped := min (s.portU.counters.copiesDropped + 1) 65535 } } ∧
       t.portD p = { s.portD p with counters := { (s.portD p).counters with
         copiesDropped := min ((s.portD p).counters.copiesDropped + 1) 65535 } } ∧
       t.portD (otherD p) = s.portD (otherD p) ∧ KeepsConfiguration s t ∧ KeepsWaiting s t))

/-! ## TRANSMISSION_START and FRAME_DEPARTURE -/

/-- R8, R9, R11, R13: a free D port begins with the head of its urgent queue, with the head of the normal queue when no urgent
frame waits; a free Port U begins with the head of its queue. A line in use, or with nothing queued, is left as
it is: the model's choice (log 19). The frame is preceded by the start octet. A departure from Port U or from an urgent queue frees its slot
and makes no offer. -/
def Obligations.TransmissionsBeginAndEnd : Prop :=
  (∀ (s : State) (p : DPort),
     (∀ f rest, (s.portD p).sending = none → (s.portD p).urgent = f :: rest →
       exec (.transmissionStart (portOfD p)) s = .next (s.setPortD p { s.portD p with
         sending := some { urgent := true,
                           octets := 0x7E :: Frame.octets (stopFrame s.mgmt.ownAddr f) } })) ∧
     (∀ f rest, (s.portD p).sending = none → (s.portD p).urgent = [] → (s.portD p).normal = f :: rest →
       exec (.transmissionStart (portOfD p)) s = .next (s.setPortD p { s.portD p with
         sending := some { urgent := false, octets := 0x7E :: Frame.octets f.frame } })) ∧
     ((s.portD p).sending ≠ none ∨ (s.portD p).urgent = [] ∧ (s.portD p).normal = [] →
       exec (.transmissionStart (portOfD p)) s = .next s) ∧
     (∀ f rest, s.portU.sending = none → s.portU.queue = f :: rest →
       exec (.transmissionStart .u) s = .next { s with portU := { s.portU with
         sending := some (0x7E :: Frame.octets f) } }) ∧
     (s.portU.sending ≠ none ∨ s.portU.queue = [] → exec (.transmissionStart .u) s = .next s)) ∧
  (∀ (s : State) (p : DPort),
     (∀ os f rest, s.portU.sending = some os → s.portU.queue = f :: rest →
       exec (.frameDeparture .u) s = .next { s with portU := { s.portU with
         sending := none, queue := rest } }) ∧
     (∀ os f rest, (s.portD p).sending = some { urgent := true, octets := os } →
       (s.portD p).urgent = f :: rest →
       exec (.frameDeparture (portOfD p)) s = .next (s.setPortD p { s.portD p with
         sending := none, urgent := rest })))

/-- R13: at a departure from a normal queue the freed slot goes to the first waiter, valve channels
before injector channels, that has an order for the port: its order joins the tail. With no such waiter
the slot stays free. Nothing but the port's normal queue, the valve channels and the injector run states
changes. R105, R136: the timer of an order starts at its departure with the limit held at that moment, if the
order is still in flight. The premise on the marks is the law of R102 and R135: a channel with an order in
flight waits for no slot. -/
def Obligations.DeparturesOfferTheSlotAndStartTimers : Prop :=
  ∀ (s : State) (p : DPort) (os : List Byte) (f : NormalFrame) (rest : List NormalFrame),
    (s.portD p).sending = some { urgent := false, octets := os } → (s.portD p).normal = f :: rest →
    ∃ t, exec (.frameDeparture (portOfD p)) s = .next t ∧
      t.portD p = { s.portD p with
        sending := none, normal := rest ++ (waiters.findSome? (orderOf s p)).toList } ∧
      t.portD (otherD p) = s.portD (otherD p) ∧ t.portU = s.portU ∧ t.arms = s.arms ∧
      t.header = s.header ∧ t.stop = s.stop ∧ t.rep = s.rep ∧ t.reg.watch = s.reg.watch ∧
      t.meter = s.meter ∧ KeepsConfiguration s t ∧ KeepsWaiting s t ∧
      (∀ a st o, f.owner = .valveOrder a st → (s.chan a st).inFlight = some o →
        (s.chan a st).pendingSlot = none → o.seq = f.frame.seq → o.departed = false →
        t.chan a st = { s.chan a st with inFlight := some { o with
          departed := true, timer := some s.mgmt.settings.responseLimit } }) ∧
      (∀ a st, f.owner = .valveOrder a st → (s.chan a st).inFlight = none →
        (s.chan a st).pendingSlot = none → t.chan a st = s.chan a st) ∧
      (∀ c k, f.owner = .strokeOrder c → (s.injRun c).inFlight = some k →
        (s.injRun c).strokeReady = none → k.seq = f.frame.seq → k.departed = false →
        t.injRun c = { s.injRun c with inFlight := some { k with
          departed := true, timer := some (s.injRec c).timeLimit } }) ∧
      (∀ c, f.owner = .strokeOrder c → (s.injRun c).inFlight = none →
        (s.injRun c).strokeReady = none → t.injRun c = s.injRun c)

/-! ## Relay Unit -/

/-- R30, with the bindings of R19: the ownership check refuses a VALVE ORDER or STROKE ORDER whose destination
is bound to an active arm, or whose destination is 0x00 while any node is. R33: the lowest-numbered matching
filter decides; BLOCK refuses, RELAY_WHEN_IDLE refuses while the destination reaches an active arm, RELAY
passes, and with no match the frame passes. R29, R34, R12: a frame that is no terminal stop and is refused by
either is answered BLOCKED. Any other goes to the port of its valid entry, or to both ports when its entry is
invalid or its destination 0x00, and is answered BUSY when a normal queue it needs holds 16 frames. A frame
placed gives back its reserved slot and is not answered. -/
def Obligations.RelayFramesAreCheckedAndPlaced : Prop :=
  (∀ (s : State) (f : Frame),
     ownershipRefuses s f = true ↔ (f.kind = 0x20 ∨ f.kind = 0x21) ∧ ReachesActiveArm s f.dst) ∧
  (∀ (s : State) (f : Frame),
     filtersRefuse s f = true ↔
       ∃ i : Fin 8, Matches (sel s.relay.filters i) f ∧
         (∀ j : Fin 8, j < i → ¬ Matches (sel s.relay.filters j) f) ∧
         ((sel s.relay.filters i).action = .block ∨
          (sel s.relay.filters i).action = .relayWhenIdle ∧ ReachesActiveArm s f.dst)) ∧
  (∀ (s : State) (f : Frame), IsNext s (.relay f) →
     let u := s.take (.relay f)
     let h : ReqHead := { src := f.src, seq := f.seq }
     let x : NormalFrame := { frame := f, owner := .relayed }
     let stop := f.kind = 0x22 ∨ f.kind = 0x23
     let refused := ownershipRefuses s f = true ∨ filtersRefuse s f = true
     let e := nodeAt s f.dst
     let room (p : DPort) : Prop := (s.portD p).normal.length < 16
     (¬ stop → refused → exec (.relayFrame f) s = .next (result h f.kind .blocked u)) ∧
     (stop ∨ ¬ refused → e.valid = true → room e.port →
       exec (.relayFrame f) s = .next (joinNormal e.port x u)) ∧
     (stop ∨ ¬ refused → e.valid = true → ¬ room e.port →
       exec (.relayFrame f) s = .next (result h f.kind .busy u)) ∧
     (stop ∨ ¬ refused → e.valid = false → room .d0 → room .d1 →
       exec (.relayFrame f) s = .next (joinNormal .d1 x (joinNormal .d0 x u))) ∧
     (stop ∨ ¬ refused → e.valid = false → ¬ (room .d0 ∧ room .d1) →
       exec (.relayFrame f) s = .next (result h f.kind .busy u)) ∧
     (f.dst = 0x00 → e.valid = false))

/-- R24, R25: a report whose source has no valid entry counts UNKNOWN_SOURCE, with a copy offered if pass unknown
is set; one that does not fit its source's role counts MISDIRECTED; neither reaches an owner. R26, R27: one that
fits is handed to its owner with the binding of its entry, a VALVE REPORT to both its recipients, and is offered
to Port U as a copy if the entry has copy-up set. -/
def Obligations.FieldReportsReachTheirOwner : Prop :=
  (∀ (s : State) (p : DPort) (f : Frame) (rest : List Frame), (s.portD p).reports = f :: rest →
     let u := s.setPortD p { s.portD p with reports := rest }
     let e := nodeAt s f.src
     (e.valid = false → s.mgmt.settings.passUnknown = true →
       exec (.fieldReport p f) s = .next (offerCopy p (copyUpOf s f) (countD p .unknownSource u))) ∧
     (e.valid = false → s.mgmt.settings.passUnknown = false →
       exec (.fieldReport p f) s = .next (countD p .unknownSource u)) ∧
     (e.valid = true → reportShape e.role ≠ some (f.kind, f.payload.length) →
       exec (.fieldReport p f) s = .next (countD p .misdirected u))) ∧
  (∀ (s : State) (p : DPort) (f : Frame) (rest : List Frame), (s.portD p).reports = f :: rest →
     let e := nodeAt s f.src
     e.valid = true → reportShape e.role = some (f.kind, f.payload.length) →
     let u := s.setPortD p { s.portD p with reports := rest }
     let v := if e.copyUp then offerCopy p (copyUpOf s f) u else u
     let sample (st : Stream) : Sample :=
       { slot := e.slot, arm := e.arm, stream := st, seq := f.seq, count := u24 f.payload 0,
         interval := u16 f.payload 3, fault := (octet f.payload 5).getLsbD 0 }
     let report (st : Stream) : ValveRpt :=
       { arm := e.arm, stream := st, station := f.src, ackSeq := octet f.payload 0,
         flow := u16 f.payload 1, closed := (octet f.payload 3).getLsbD 0,
         fault := (octet f.payload 3).getLsbD 1 }
     (∀ st, e.role = meterRole st → exec (.fieldReport p f) s = .next { v with
       meter := { v.meter with samples := v.meter.samples ++ [sample st] } }) ∧
     (∀ st, e.role = valveRole st → exec (.fieldReport p f) s = .next { v with
       reg := { v.reg with reports := v.reg.reports ++ [report st] }
       stop := { v.stop with reports := v.stop.reports ++ [report st] } }) ∧
     (e.role = .injector → exec (.fieldReport p f) s = .next { v with
       inj := { v.inj with reports := v.inj.reports ++
         [{ channel := e.channel, source := f.src, seq := octet f.payload 0,
            confirmed := decide (octet f.payload 1 = 0x01) }] } }) ∧
     (e.role = .permit → exec (.fieldReport p f) s = .next { v with
       arms := { v.arms with permitReports := v.arms.permitReports ++ [octet f.payload 0] } }))

/-! ## Tables -/

/-- R20 (with R21, R22): the four checks of a NODE MAP write in their order; the write that passes them replaces
the whole entry, and one that changes no binding changes nothing else. R23: a write that changes the binding
clears the run state of each meter slot the old or the new entry names, but for its gap count, the held report
of each valve channel, and the permit bits; the injectors, the contexts, the header and the D ports stay. -/
def Obligations.NodeMapWritesRebind : Prop :=
  (∀ (s : State) (h : ReqHead) (i : Byte) (r : RawNode), NextRequest s h (.writeNode i r) →
     (¬ IndexFits .nodeMap i → Refuses s h (.writeNode i r) .badIndex) ∧
     (IndexFits .nodeMap i → ¬ NodeFits r → Refuses s h (.writeNode i r) .badValue) ∧
     (IndexFits .nodeMap i → NodeFits r → ∃ n e, nodeIndex i = some n ∧ nodeOf r = some e ∧
       let old := nodeAt s i
       (Conflicts s i e → Refuses s h (.writeNode i r) .conflict) ∧
       (¬ Conflicts s i e → Rebinds old e → Involves s i old ∨ Involves s i e →
         Refuses s h (.writeNode i r) .inUse) ∧
       (¬ Conflicts s i e → ¬ Rebinds old e → CarriesOut s h (.writeNode i r) (fun u =>
         { u with relay := { u.relay with nodeMap := put u.relay.nodeMap n e } })) ∧
       (¬ Conflicts s i e → Rebinds old e → ¬ Involves s i old → ¬ Involves s i e →
         ∃ t, exec (.tableWriteNodeMap h i r) s = .next t ∧ RepliedDone s t h (.writeNode i r) ∧
           t.relay = { s.relay with nodeMap := put s.relay.nodeMap n e }))) ∧
  (∀ (s : State) (h : ReqHead) (i : Byte) (r : RawNode) (e : NodeEntry),
     NextRequest s h (.writeNode i r) → IndexFits .nodeMap i → nodeOf r = some e →
     ¬ Conflicts s i e → Rebinds (nodeAt s i) e →
     ¬ Involves s i (nodeAt s i) → ¬ Involves s i e →
     ∃ t, exec (.tableWriteNodeMap h i r) s = .next t ∧
       (∀ x, x = nodeAt s i ∨ x = e → x.valid = true →
         (isMeterRole x.role → t.meterRun x.slot =
           { MeterRun.cleared with gapCount := (s.meterRun x.slot).gapCount }) ∧
         (∀ st, x.role = valveRole st → (t.chan x.arm st).held = none) ∧
         (x.role = .permit → t.arms.permits = 0 ∧ t.arms.permitTimer = none)) ∧
       t.inj = s.inj ∧ t.arms.ctx = s.arms.ctx ∧ t.header = s.header ∧ t.d0 = s.d0 ∧ t.d1 = s.d1 ∧
       t.stop = s.stop ∧ t.mgmt = s.mgmt ∧ t.rep.records = s.rep.records)

/-- R32, R38, R39: a RELAY FILTER write is judged by index and action, a RECIPE write by index and, with
valid = yes, by the rules of R38, with valid = no by its line count alone; it replaces the record and changes
nothing else. R158, R166: a SETTINGS write is judged by index 0 and its ranges; it replaces the record and
judges ALERT_N by the new pin level in the same act. That the index is checked first in all three is the model's
choice where the rule gives no order (log 33). -/
def Obligations.FilterRecipeAndSettingsWrites : Prop :=
  (∀ (s : State) (h : ReqHead) (i : Byte),
     (∀ r, NextRequest s h (.writeFilter i r) →
       (¬ IndexFits .relayFilter i → Refuses s h (.writeFilter i r) .badIndex) ∧
       (IndexFits .relayFilter i → ¬ (r.enabled.toNat ≤ 1 ∧ r.action.toNat ≤ 2) →
         Refuses s h (.writeFilter i r) .badValue) ∧
       (IndexFits .relayFilter i → r.enabled.toNat ≤ 1 → r.action.toNat ≤ 2 → ∃ n x,
         filterIndex i = some n ∧ filterOf r = some x ∧
         CarriesOut s h (.writeFilter i r) (fun u =>
           { u with relay := { u.relay with filters := put u.relay.filters n x } }))) ∧
     (∀ r, NextRequest s h (.writeRecipe i r) →
       (¬ IndexFits .recipe i → Refuses s h (.writeRecipe i r) .badIndex) ∧
       (IndexFits .recipe i → ¬ RecipeFits r → Refuses s h (.writeRecipe i r) .badValue) ∧
       (IndexFits .recipe i → RecipeFits r → ∃ n x, recipeIndex i = some n ∧ recipeOf r = some x ∧
         CarriesOut s h (.writeRecipe i r) (fun u =>
           { u with arms := { u.arms with recipes := put u.arms.recipes n x } })))) ∧
  (∀ (s : State) (h : ReqHead) (i : Byte) (r : RawSettings), NextRequest s h (.writeSettings i r) →
     (i ≠ 0 → Refuses s h (.writeSettings i r) .badIndex) ∧
     (i = 0 → ¬ SettingsFit r → Refuses s h (.writeSettings i r) .badValue) ∧
     (i = 0 → SettingsFit r → CarriesOut s h (.writeSettings i r) (fun u =>
       let x : Settings :=
         { controller := r.controller, passUnknown := decide (r.passUnknown = 1),
           pinLevel := r.pinLevel.toNat, responseLimit := r.response.toNat,
           closeLimit := r.closeLimit.toNat, permitLimit := r.permit.toNat,
           retryInterval := r.retry.toNat }
       let out := u.rep.alerts.any
         (fun y => !y.acknowledged && decide (r.pinLevel.toNat ≤ levelOf y.kind))
       { u with mgmt := { u.mgmt with settings := x }, rep := { u.rep with alertOut := out } })))

/-- R36: an ARM write is judged by index, by priority and header policy (and its yes or no fields, R170),
and by the arm being IDLE; a write that passes replaces the record and changes nothing else. -/
def Obligations.ArmWritesNeedAnIdleArm : Prop :=
  ∀ (s : State) (h : ReqHead) (i : Byte) (r : RawArm), NextRequest s h (.writeArm i r) →
    let fits := r.enabled.toNat ≤ 1 ∧ r.permit.toNat ≤ 1 ∧ r.priority.toNat ≤ 3 ∧ r.policy.toNat ≤ 1
    (7 < i.toNat → Refuses s h (.writeArm i r) .badIndex) ∧
    (i.toNat ≤ 7 → ¬ fits → Refuses s h (.writeArm i r) .badValue) ∧
    (∀ a, armOf i = some a → fits → s.phase a ≠ .idle → Refuses s h (.writeArm i r) .inUse) ∧
    (∀ a, armOf i = some a → fits → s.phase a = .idle →
      CarriesOut s h (.writeArm i r) (fun u =>
        let x : ArmRec :=
          { enabled := decide (r.enabled = 1), priority := r.priority.toNat,
            permitRequired := decide (r.permit = 1),
            policy := if r.policy = 1 then .yield else .hold }
        { u with arms := { u.arms with table := put u.arms.table a x } })) ∧
    (i.toNat ≤ 7 → ∃ a, armOf i = some a)

/-- R52, R53: a METER write is judged by index, fields and use; a write that passes replaces the record and returns
the slot's run state to its cleared values. R131: an INJECTOR write is judged alike; a write that passes replaces
the record, makes the channel AVAILABLE or UNCONFIGURED by the new record, and puts its miss count to 0 and its
last served outlet to outlet 1. What has ended with either is judged in the same act (R163). -/
def Obligations.MeterAndInjectorWritesClearTheRun : Prop :=
  (∀ (s : State) (h : ReqHead) (i : Byte) (r : RawMeter), NextRequest s h (.writeMeter i r) →
     let used (n : Slot) : Prop := ∃ addr, (1 ≤ addr.toNat ∧ addr.toNat ≤ 0xDF) ∧
       (nodeAt s addr).valid = true ∧ isMeterRole (nodeAt s addr).role ∧ (nodeAt s addr).slot = n ∧
       isActive (s.phase (nodeAt s addr).arm) = true
     (¬ IndexFits .meter i → Refuses s h (.writeMeter i r) .badIndex) ∧
     (IndexFits .meter i → ¬ MeterFits r → Refuses s h (.writeMeter i r) .badValue) ∧
     (IndexFits .meter i → MeterFits r → ∃ n x, slotOf i = some n ∧ meterOf r = some x ∧
       (used n → Refuses s h (.writeMeter i r) .inUse) ∧
       (¬ used n → CarriesOut s h (.writeMeter i r) (fun u =>
         let m := { u.meter with table := put u.meter.table n x, run := put u.meter.run n .cleared }
         settleAlerts { u with meter := m })))) ∧
  (∀ (s : State) (h : ReqHead) (i : Byte) (r : RawInjector), NextRequest s h (.writeInjector i r) →
     (¬ IndexFits .injector i → Refuses s h (.writeInjector i r) .badIndex) ∧
     (IndexFits .injector i → ¬ InjectorFits r → Refuses s h (.writeInjector i r) .badValue) ∧
     (IndexFits .injector i → InjectorFits r → ∃ c x, channelOf i = some c ∧ injectorOf r = some x ∧
       let run := s.injRun c
       let used := run.inFlight ≠ none ∨ 0 < run.owed0 ∨ 0 < run.owed1 ∨
         ∃ a, ((s.injRec c).out0 = some a ∨ (s.injRec c).out1 = some a ∨ x.out0 = some a ∨
           x.out1 = some a) ∧ isActive (s.phase a) = true
       (used → Refuses s h (.writeInjector i r) .inUse) ∧
       (¬ used → CarriesOut s h (.writeInjector i r) (fun u =>
         let state : InjPhase := if x.valid then .available else .unconfigured
         let y := { run with state := state, missCount := 0, lastServed := true }
         let m := { u.inj with table := put u.inj.table c x, run := put u.inj.run c y }
         settleAlerts { u with inj := m }))))

/-- R115, R126: a HEADER write is judged by index, fields and, in RUN, by the share size and grant policy
held. A write that passes replaces the record. A capacity at or above the granted sum takes effect at once,
S_req is figured anew (R117) and a pass is called for; a lower one becomes pending, and a yield is asked of
every candidate. -/
def Obligations.HeaderWritesChangeTheCapacity : Prop :=
  ∀ (s : State) (h : ReqHead) (i : Byte) (r : RawHeader), NextRequest s h (.writeHeader i r) →
    (i ≠ 0 → Refuses s h (.writeHeader i r) .badIndex) ∧
    (i = 0 → ¬ HeaderFits r → Refuses s h (.writeHeader i r) .badValue) ∧
    (i = 0 → HeaderFits r → ∃ x, headerOf r = some x ∧
      let fixed := x.shareSize = s.header.record.shareSize ∧ x.policy = s.header.record.policy
      (s.mgmt.mode = .run → ¬ fixed → Refuses s h (.writeHeader i r) .wrongMode) ∧
      (s.mgmt.mode = .standby ∨ fixed → ∃ t, exec (.tableWriteHeader h i r) s = .next t ∧
        RepliedDone s t h (.writeHeader i r) ∧ t.header.record = x ∧
        (grantedSum s ≤ r.capacity.toNat →
          t.header.effective = r.capacity.toNat ∧ t.header.pendingCap = none ∧
          (s.header.spacing = none → t.header.passCalled = true) ∧
          (∀ a, t.grantOf a =
            if isMoving (s.phase a) = true ∨ s.phase a = .waiting then
              let q := (s.ctxOf a).recipe
              let d := 1000 * x.shareSize
              let need := (q.bulkFlow * q.ratio + d - 1) / d
              { s.grantOf a with sReq := max (min need r.capacity.toNat) (s.grantOf a).granted }
            else s.grantOf a)) ∧
        (r.capacity.toNat < grantedSum s →
          t.header.effective = s.header.effective ∧
          t.header.pendingCap = some r.capacity.toNat ∧
          (∀ a, t.grantOf a = { s.grantOf a with
            yieldPending := (s.grantOf a).yieldPending || isCandidate s a })) ∧
        (∀ a, t.phase a = s.phase a) ∧ t.header.queue = s.header.queue ∧ t.meter = s.meter ∧
        t.inj = s.inj ∧ t.stop = s.stop ∧ t.rep = s.rep ∧ t.relay = s.relay ∧ t.mgmt = s.mgmt ∧
        KeepsPort s.d0 t.d0 ∧ KeepsPort s.d1 t.d1))

/-! ## Arm commands -/

/-- R70, R49, R40 (checks 1 to 3): in STANDBY an arm command is answered WRONG_MODE, for a bad index or a disabled
arm BAD_INDEX, and in an arm state that does not take it WRONG_STATE. R71, R77: START and RESUME are answered
NOT_PERMITTED while ESTOP_N is asserted, while a needed permit bit is false, and while the Lane Stop Unit tracks
a valve station bound to the arm. That START and RESUME are answered WRONG_MODE in STANDBY under ESTOP_N too,
where R152 says NOT_PERMITTED whatever the mode, is the model's choice (log 35). -/
def Obligations.ArmCommandsAreCheckedInOrder : Prop :=
  (∀ (s : State) (h : ReqHead) (r : Request) (i : Byte) (takes : ArmCtx → Bool),
     armCommand r = some (i, takes) → NextRequest s h r →
     (s.mgmt.mode ≠ .run → Refuses s h r .wrongMode) ∧
     (s.mgmt.mode = .run → 7 < i.toNat → Refuses s h r .badIndex) ∧
     (∀ a, s.mgmt.mode = .run → armOf i = some a → (s.armRec a).enabled = false →
       Refuses s h r .badIndex) ∧
     (∀ a, ArmReady s i a → takes (s.ctxOf a) = false → Refuses s h r .wrongState)) ∧
  (∀ (s : State) (h : ReqHead) (i : Byte) (a : Arm), ArmReady s i a →
     let tracked := ∃ st n e, station s a st = some (n, e) ∧ isTracked s n = true
     (s.stop.estop = true ∨
       (s.armRec a).permitRequired = true ∧ s.arms.permits.getLsbD a.val = false ∨ tracked) →
     (s.phase a = .ready → NextRequest s h (.start i) → Refuses s h (.start i) .notPermitted) ∧
     (s.phase a = .paused → NextRequest s h (.resume i) → Refuses s h (.resume i) .notPermitted))

/-- R40 (checks 4 to 10): the checks of AUTHORIZE for an IDLE arm, in their order. R42, R43: a line is bound to the
lowest-numbered channel that qualifies for it, and to the outlet whose arm is the arm, with stroke interval
floor(10000 × stroke volume / dose); with no qualifying channel the line is not bound. R41: the bindings that check 6 asks for: the gasoline meter on
a valid slot and the gasoline station; with R above 0 the same of ethanol; with R = 0 an ethanol meter only on a
valid slot. -/
def Obligations.AuthorizeIsCheckedInOrder : Prop :=
  (∀ (s : State) (h : ReqHead) (i n : Byte) (id preset : Word32) (a : Arm),
     NextRequest s h (.authorize i id n preset) → ArmReady s i a → s.phase a = .idle →
     let r := Request.authorize i id n preset
     (31 < n.toNat → Refuses s h r .badValue) ∧
     (∀ k, recipeIndex n = some k → (sel s.arms.recipes k).valid = false → Refuses s h r .badValue) ∧
     (∀ k, recipeIndex n = some k → (sel s.arms.recipes k).valid = true →
       let q := sel s.arms.recipes k
       let fits := Within 1000 10000000 preset.toNat ∧ q.startVolume + q.closeAhead ≤ preset.toNat
       let bound := bindingsHold s a q.ratio = true
       let idHeld := (∃ b, (s.ctxOf b).reservedSlot = true ∧
           ((s.ctxOf b).batch.map (fun x => x.id)) = some id) ∨
         ∃ x ∈ s.rep.records, x.id = id
       (¬ fits → Refuses s h r .badValue) ∧
       (fits → ¬ bound → Refuses s h r .bindingMissing) ∧
       (fits → bound → bindLines s a q.lines = none → Refuses s h r .noInjector) ∧
       (∀ lines, fits → bound → bindLines s a q.lines = some lines →
         let short := ∃ l ∈ lines, l.vs < 500
         (short → Refuses s h r .badValue) ∧
         (¬ short → idHeld → Refuses s h r .duplicateId) ∧
         (¬ short → ¬ idHeld → 32 ≤ s.rep.records.length + s.rep.reserved →
           Refuses s h r .noRecordSpace)))) ∧
  (∀ (s : State) (a : Arm) (l : RecipeLine),
     let fits (c : Channel) : Prop := (s.injRec c).valid = true ∧
       ((s.injRun c).state = .available ∨ (s.injRun c).state = .stroking) ∧
       (headBinding s c).isSome = true ∧ (s.injRec c).code = l.code ∧
       ((s.injRec c).out0 = some a ∨ (s.injRec c).out1 = some a)
     (∀ x, bindLine s a l = some x ↔ ∃ c, fits c ∧ (∀ d, d < c → ¬ fits d) ∧
       x = { channel := c, outlet := decide ((s.injRec c).out0 ≠ some a),
             vs := 10000 * (s.injRec c).stroke / l.dose, due := 0, delivered := 0, dropped := 0 }) ∧
     (bindLine s a l = none ↔ ∀ c, ¬ fits c)) ∧
  (∀ (s : State) (a : Arm) (ratio : Nat),
     let metered (st : Stream) : Prop := ∃ j, meterSlot s a st = some j ∧ (s.meterRec j).valid = true
     let stationed (st : Stream) : Prop := ∃ n, Binds s n (valveRole st) a
     (bindingsHold s a ratio = true ↔ metered .gasoline ∧ stationed .gasoline ∧
       (0 < ratio → metered .ethanol ∧ stationed .ethanol) ∧
       (ratio = 0 → meterSlot s a .ethanol = none ∨ metered .ethanol)) ∧
     (∀ st, meterSlot s a st = none ↔ ∀ n, ¬ Binds s n (meterRole st) a) ∧
     (∀ st j, meterSlot s a st = some j → ∃ n, Binds s n (meterRole st) a ∧ (nodeAt s n).slot = j))

/-- R46, R47: an accepted AUTHORIZE is answered DONE and opens the batch: the context takes the values of R46, the
reservation count rises by one, the grant record becomes 0 and the remainders of the arm's meter slots become 0;
no other context, no total and no record changes. R31: the normal queues in the next state are those after the
withdrawal, which takes each relayed VALVE ORDER or STROKE ORDER for a node bound to the arm that waits, not yet
begun, leaves every other frame in its order, and lets waiters take the freed slots, on D0 before D1 (log 6). -/
def Obligations.AuthorizeOpensTheBatch : Prop :=
  (∀ (s : State) (h : ReqHead) (i n : Byte) (id preset : Word32) (a : Arm) (k : Fin 32)
     (lines : List LineState),
     NextRequest s h (.authorize i id n preset) → ArmReady s i a → s.phase a = .idle →
     recipeIndex n = some k → (sel s.arms.recipes k).valid = true →
     let q := sel s.arms.recipes k
     Within 1000 10000000 preset.toNat → q.startVolume + q.closeAhead ≤ preset.toNat →
     bindingsHold s a q.ratio = true → bindLines s a q.lines = some lines →
     (∀ l ∈ lines, 500 ≤ l.vs) → idInUse s id = false →
     s.rep.records.length + s.rep.reserved < 32 →
     ∃ t, exec (.authorize h i id n preset) s = .next t ∧
       RepliedDone s t h (.authorize i id n preset) ∧
       t.ctxOf a = { ArmCtx.idle with
         state := .ready
         batch := some { id := id, recipeNo := k, snapshot := q, preset := preset.toNat }
         reservedSlot := true
         lines := lines } ∧
       (∀ b, b ≠ a → t.ctxOf b = s.ctxOf b) ∧ t.grantOf a = .zero ∧
       (∀ b, b ≠ a → t.grantOf b = s.grantOf b) ∧
       (∀ st j, meterSlot s a st = some j →
         t.meterRun j = { s.meterRun j with remainder := 0 }) ∧
       (∀ j, meterSlot s a .gasoline ≠ some j → meterSlot s a .ethanol ≠ some j →
         t.meterRun j = s.meterRun j) ∧
       t.rep.reserved = s.rep.reserved + 1 ∧ t.rep.records = s.rep.records ∧
       t.meter.unassigned = s.meter.unassigned ∧ t.header.queue = s.header.queue ∧
       t.stop = s.stop ∧ t.arms.permits = s.arms.permits ∧ t.arms.closing = s.arms.closing ∧
       (∀ p, (t.portD p).normal = ((withdrawRelayed a s).portD p).normal) ∧
       KeepsConfiguration s t ∧ KeepsWaiting s t) ∧
  (∀ (s : State) (a : Arm) (p : DPort),
     let begun (x : NormalFrame) (xs : List NormalFrame) : List NormalFrame × List NormalFrame :=
       if normalBegun (s.portD p) then ([x], xs) else ([], x :: xs)
     let gone (x : NormalFrame) : Prop := x.owner = .relayed ∧
       (x.frame.kind = 0x20 ∨ x.frame.kind = 0x21) ∧
       ∃ n, (1 ≤ n.toNat ∧ n.toNat ≤ 0xDF) ∧ (x.frame.dst = 0x00 ∨ x.frame.dst = n) ∧ BoundTo s n a
     (∀ x, withdrawnBy s a x = true ↔ gone x) ∧
     ((s.portD p).normal = [] → ((withdrawRelayed a s).portD p).normal = []) ∧
     (∀ x xs, (s.portD p).normal = x :: xs →
       let parts := begun x xs
       let kept := parts.1 ++ parts.2.filter (fun y => !withdrawnBy s a y)
       ∃ more, ((withdrawRelayed a s).portD p).normal = kept ++ more ∧
         more.length ≤ (s.portD p).normal.length - kept.length))

/-- R49: CANCEL of a READY arm returns it to IDLE with the context values of R48, frees its reserved slot, writes no
record and raises no alert. R93, R144: RELEASE of a DONE arm returns it to IDLE likewise; a stroke in flight for
one of its outlets, charged DROPPED, becomes charged NONE; its record stays in the Record Store. -/
def Obligations.CancelAndReleaseReturnToIdle : Prop :=
  (∀ (s : State) (h : ReqHead) (i : Byte) (a : Arm),
     NextRequest s h (.cancel i) → ArmReady s i a → s.phase a = .ready →
     ∃ t, exec (.cancel h i) s = .next t ∧ RepliedDone s t h (.cancel i) ∧ t.ctxOf a = .idle ∧
       t.rep.reserved = s.rep.reserved - 1 ∧ t.rep.records = s.rep.records ∧
       t.rep.raiseCounter = s.rep.raiseCounter ∧ t.header.queue = s.header.queue ∧ t.inj = s.inj ∧
       t.meter = s.meter ∧ (∀ b st, t.chan b st = s.chan b st) ∧ t.d0 = s.d0 ∧ t.d1 = s.d1) ∧
  (∀ (s : State) (h : ReqHead) (i : Byte) (a : Arm),
     NextRequest s h (.release i) → ArmReady s i a → s.phase a = .done →
     ∃ t, exec (.release h i) s = .next t ∧ RepliedDone s t h (.release i) ∧ t.ctxOf a = .idle ∧
       t.grantOf a = .zero ∧ t.rep.records = s.rep.records ∧ t.rep.reserved = s.rep.reserved ∧
       (∀ c k, (s.injRun c).inFlight = some k → k.charge = .dropped →
         (s.injRec c).outletArm k.outlet = some a →
         t.injRun c = { s.injRun c with inFlight := some { k with charge := .uncounted } }) ∧
       (∀ c, (∀ k, (s.injRun c).inFlight = some k → k.charge = .dropped →
           (s.injRec c).outletArm k.outlet ≠ some a) → t.injRun c = s.injRun c) ∧
       (∀ b, b ≠ a → KeepsArm b s t) ∧ t.meter = s.meter ∧ t.stop = s.stop ∧ t.d0 = s.d0 ∧
       t.d1 = s.d1 ∧ KeepsConfiguration s t ∧ KeepsWaiting s t)

/-- R71, R117, R118, R128: START of a READY arm whose recipe has R above 0 sets the start time and the phase
base and takes it to WAITING: it joins the wait queue by the grant policy, with its request and its wait
timer, and a serving pass is called for. -/
def Obligations.StartJoinsTheWaitQueue : Prop :=
  ∀ (s : State) (h : ReqHead) (i : Byte) (a : Arm),
    NextRequest s h (.start i) → ArmReady s i a → s.phase a = .ready → flowForbidden s a = false →
    let q := (s.ctxOf a).recipe
    let d := 1000 * s.header.record.shareSize
    let higher (b : Arm) : Prop := (s.armRec a).priority ≤ (s.armRec b).priority
    q.ratio ≠ 0 → ∃ t, exec (.start h i) s = .next t ∧ RepliedDone s t h (.start i) ∧
      t.ctxOf a = { s.ctxOf a with
        state := .waiting, startTime := some s.mgmt.seconds, phaseBase := (s.ctxOf a).total } ∧
      t.grantOf a =
        { sReq := min ((q.bulkFlow * q.ratio + d - 1) / d) s.header.effective,
          sMin := max 1 ((q.startFlow * q.ratio + d - 1) / d), granted := 0,
          yieldPending := false, order := none } ∧
      sel t.header.waitTimers a = { timer := some s.header.record.waitLimit, raised := false } ∧
      (s.header.record.policy = .arrival → t.header.queue = s.header.queue ++ [a]) ∧
      (s.header.record.policy = .priority → ∃ xs ys, s.header.queue = xs ++ ys ∧
        t.header.queue = xs ++ a :: ys ∧ (∀ b ∈ xs, higher b) ∧ (∀ b, ys.head? = some b → ¬ higher b)) ∧
      (s.header.spacing = none → t.header.passCalled = true) ∧
      (∀ b, b ≠ a → KeepsArm b s t) ∧ t.meter = s.meter ∧ t.inj = s.inj ∧ t.stop = s.stop ∧
      t.d0 = s.d0 ∧ t.d1 = s.d1 ∧ KeepsConfiguration s t ∧ KeepsWaiting s t

/-- R71, R72, R98, R100: START of a READY arm whose recipe has R = 0 goes straight to STARTING: its flow
target is the start flow (capped by pace hold), its gasoline demand is all of it and is handed to the gasoline channel, whose VALVE ORDER joins the normal queue of
its station's port where the channel is free and the queue has room (R103, R104), and the silence timers of its
valid slots start. No other channel and no other queue takes an order. The premises on the thresholds keep the phase check of R74 from moving it on, and the
one on its lines keeps R140 away. -/
def Obligations.StartWithoutEthanolFlowsAtOnce : Prop :=
  ∀ (s : State) (h : ReqHead) (i : Byte) (a : Arm),
    NextRequest s h (.start i) → ArmReady s i a → s.phase a = .ready → flowForbidden s a = false →
    let c := s.ctxOf a
    c.recipe.ratio = 0 → c.recipe.closeAhead < c.remaining → 0 < c.recipe.startVolume →
    mandatoryIsolated s a = false →
    let f := if c.paceHold then min c.recipe.startFlow c.recipe.topFlow else c.recipe.startFlow
    ∃ t, exec (.start h i) s = .next t ∧ RepliedDone s t h (.start i) ∧
      t.ctxOf a = { c with
        state := .starting, startTime := some s.mgmt.seconds, phaseBase := c.total, flow := f,
        ethDemand := 0, gasDemand := f } ∧
      (∀ j, j ∈ boundSlots s a → (s.meterRec j).valid = true →
        t.meterRun j = { s.meterRun j with
          headRaised := false, timer := some (s.meterRec j).silence }) ∧
      t.chan a .ethanol = s.chan a .ethanol ∧
      t.chan a .gasoline = (handDemand a .gasoline f s).chan a .gasoline ∧
      (∀ p, (t.portD p).normal = ((handDemand a .gasoline f s).portD p).normal) ∧
      (∀ n e, let x := s.chan a .gasoline
        station s a .gasoline = some (n, e) → (s.portD e.port).normal.length < 16 →
        x.inFlight = none → x.pendingSlot = none → x.lastSent ≠ some f →
        t.chan a .gasoline =
          { x with
            inFlight := some { seq := x.nextSeq, demand := f, departed := false, timer := none }
            latched := none, lastSent := some f, nextSeq := x.nextSeq + 1 } ∧
        (t.portD e.port).normal = (s.portD e.port).normal ++
          [{ frame := mkFrame n s.mgmt.ownAddr 0x20 x.nextSeq (be 2 f),
             owner := .valveOrder a .gasoline }] ∧
        (t.portD (otherD e.port)).normal = (s.portD (otherD e.port)).normal) ∧
      t.header.queue = s.header.queue ∧
      (∀ b, b ≠ a → KeepsArm b s t) ∧ t.inj = s.inj ∧ t.stop = s.stop ∧
      KeepsPort s.d0 t.d0 ∧ KeepsPort s.d1 t.d1 ∧ KeepsConfiguration s t ∧ KeepsWaiting s t

/-- R77: RESUME of a PAUSED arm sets the phase base to T and puts trim and deviation run count to 0; with R
above 0 the arm joins the wait queue, with R = 0 it enters STARTING. Start time, totals, lines, flags and
maximum deviation are kept. -/
def Obligations.ResumeRestartsTheRun : Prop :=
  ∀ (s : State) (h : ReqHead) (i : Byte) (a : Arm),
    NextRequest s h (.resume i) → ArmReady s i a → s.phase a = .paused → flowForbidden s a = false →
    let c := s.ctxOf a
    let c1 := { c with phaseBase := c.total, trim := 0, devRun := 0 }
    (c.recipe.ratio ≠ 0 → ∃ t, exec (.resume h i) s = .next t ∧ RepliedDone s t h (.resume i) ∧
      t.ctxOf a = { c1 with state := .waiting } ∧ a ∈ t.header.queue ∧
      sel t.header.waitTimers a = { timer := some s.header.record.waitLimit, raised := false } ∧
      (∀ b, b ≠ a → KeepsArm b s t) ∧ KeepsConfiguration s t ∧ KeepsWaiting s t) ∧
    (c.recipe.ratio = 0 → c.recipe.closeAhead < c.remaining → 0 < c.recipe.startVolume →
      mandatoryIsolated s a = false →
      ∃ t, exec (.resume h i) s = .next t ∧ RepliedDone s t h (.resume i) ∧
        (∃ f, t.ctxOf a = { c1 with
          state := .starting, flow := f, ethDemand := 0, gasDemand := f } ∧
          f ≤ c.recipe.startFlow) ∧
        t.header.queue = s.header.queue ∧ (∀ b, b ≠ a → KeepsArm b s t) ∧
        KeepsConfiguration s t ∧ KeepsWaiting s t)

/-- R76, R80: PAUSE takes a WAITING arm out of the queue to PAUSED, takes a flowing arm into CLOSING with
reason PAUSE and targets of 0, and makes the reason of a CLOSING(END) arm PAUSE. The premise of the second
case, that the valve condition does not hold, keeps the close from completing at once (R81). -/
def Obligations.PauseActsByState : Prop :=
  ∀ (s : State) (h : ReqHead) (i : Byte) (a : Arm), NextRequest s h (.pause i) → ArmReady s i a →
    let c := s.ctxOf a
    (c.state = .waiting → ∃ t, exec (.pause h i) s = .next t ∧ RepliedDone s t h (.pause i) ∧
      t.ctxOf a = { c with state := .paused } ∧
      t.header.queue = s.header.queue.filter (fun b => decide (b ≠ a)) ∧
      (sel t.header.waitTimers a).timer = none ∧ (∀ b, b ≠ a → KeepsArm b s t) ∧
      t.rep.records = s.rep.records) ∧
    (isFlowing c.state = true → valveCondition s a = false →
      ∃ t, exec (.pause h i) s = .next t ∧ RepliedDone s t h (.pause i) ∧
        t.ctxOf a = { c with
          state := .closing, closeReason := some .pause, flow := 0, ethDemand := 0,
          gasDemand := 0 } ∧
        t.closeOf a = { timer := some s.mgmt.settings.closeLimit, gasSettled := false,
                        ethSettled := false } ∧
        (t.grantOf a).granted = (s.grantOf a).granted ∧ (t.grantOf a).yieldPending = false ∧
        t.inj = s.inj ∧ (∀ b, b ≠ a → KeepsArm b s t) ∧ t.rep.records = s.rep.records) ∧
    (c.state = .closing → c.closeReason = some .theEnd →
      ∃ t, exec (.pause h i) s = .next t ∧ RepliedDone s t h (.pause i) ∧
        t.ctxOf a = { c with closeReason := some .pause } ∧ t.arms.closing = s.arms.closing ∧
        (∀ b, b ≠ a → KeepsArm b s t) ∧ t.rep.records = s.rep.records)

/-- R78, R91: STOP ends a WAITING, PAUSED or HALTED batch with its record (STOPPED, STOPPED, ABANDONED),
takes a flowing arm into CLOSING with reason STOP, and makes the reason of a CLOSING(END) or CLOSING(PAUSE)
arm STOP. -/
def Obligations.StopActsByState : Prop :=
  ∀ (s : State) (h : ReqHead) (i : Byte) (a : Arm), NextRequest s h (.stop i) → ArmReady s i a →
    let c := s.ctxOf a
    let ends (why : EndReason) : Prop := ∀ b, c.batch = some b →
      ∃ t, exec (.stop h i) s = .next t ∧ RepliedDone s t h (.stop i) ∧
        t.ctxOf a = { c with state := .done, reservedSlot := false } ∧
        t.rep.records = s.rep.records ++ [recordOf a c b why s.mgmt.seconds] ∧
        t.rep.reserved = s.rep.reserved - 1 ∧ (∀ x, x ≠ a → KeepsArm x s t) ∧
        t.header.queue = s.header.queue.filter (fun x => decide (x ≠ a) || decide (c.state ≠ .waiting))
    let escalates : Prop := ∃ t, exec (.stop h i) s = .next t ∧ RepliedDone s t h (.stop i) ∧
      t.ctxOf a = { c with closeReason := some .stop } ∧ t.arms.closing = s.arms.closing ∧
      (∀ x, x ≠ a → KeepsArm x s t) ∧ t.rep.records = s.rep.records
    (c.state = .waiting → ends .stopped) ∧ (c.state = .paused → ends .stopped) ∧
    (c.state = .halted → ends .abandoned) ∧
    (c.state = .closing → c.closeReason = some .theEnd → escalates) ∧
    (c.state = .closing → c.closeReason = some .pause → escalates) ∧
    (isFlowing c.state = true → valveCondition s a = false →
      ∃ t, exec (.stop h i) s = .next t ∧ RepliedDone s t h (.stop i) ∧
        t.ctxOf a = { c with
          state := .closing, closeReason := some .stop, flow := 0, ethDemand := 0,
          gasDemand := 0 } ∧
        t.closeOf a = { timer := some s.mgmt.settings.closeLimit, gasSettled := false,
                        ethSettled := false } ∧
        (∀ b, b ≠ a → KeepsArm b s t) ∧ t.rep.records = s.rep.records)

/-- R86: FAULT RESET of a HALTED arm is answered CONDITION_PRESENT while the standing condition of its
fault code holds, or a station of the arm is tracked or not closed; otherwise the fault code becomes absent
and the arm goes to PAUSED. R84: the standing conditions of the fault codes. -/
def Obligations.FaultResetNeedsTheConditionGone : Prop :=
  (∀ (s : State) (h : ReqHead) (i : Byte) (a : Arm),
    NextRequest s h (.faultReset i) → ArmReady s i a → s.phase a = .halted →
    let stands := (∃ k, (s.ctxOf a).faultCode = some k ∧ standing s k (.arm a) = true) ∨
      ∃ st n e, station s a st = some (n, e) ∧ (isTracked s n = true ∨ isMarked s n = true)
    (stands → Refuses s h (.faultReset i) .conditionPresent) ∧
    (¬ stands → ∃ t, exec (.faultReset h i) s = .next t ∧ RepliedDone s t h (.faultReset i) ∧
      t.ctxOf a = { s.ctxOf a with faultCode := none, state := .paused } ∧
      (∀ b, b ≠ a → KeepsArm b s t) ∧ t.arms.closing = s.arms.closing ∧ t.meter = s.meter ∧
      t.reg = s.reg ∧ t.header = s.header ∧ t.inj = s.inj ∧ t.stop = s.stop ∧ t.d0 = s.d0 ∧
      t.d1 = s.d1 ∧ t.rep.records = s.rep.records)) ∧
  (∀ (s : State) (a : Arm),
    let bound (i : Slot) : Prop := ∃ st, meterSlot s a st = some i
    let held (f : HeldReport → Prop) : Prop := ∃ st r, (s.chan a st).held = some r ∧ f r
    let tracked := ∃ st n e, station s a st = some (n, e) ∧ isTracked s n = true
    let marked := ∃ st n e, station s a st = some (n, e) ∧ isMarked s n = true
    let stands (k : AlertKind) : Prop := standing s k (.arm a) = true
    (stands .permitLost ↔ s.arms.permits.getLsbD a.val = false) ∧
    (stands .meterSilent ↔ ∃ i, bound i ∧ (s.meterRun i).silent = true) ∧
    (stands .meterHeadFault ↔ ∃ i, bound i ∧ (s.meterRun i).headFault = true) ∧
    (stands .valveStationFault ↔ held (fun r => r.fault = true)) ∧
    (stands .additiveLost ↔ ∃ p ∈ (s.ctxOf a).lines.zip (s.ctxOf a).recipe.lines,
      p.2.mandatory = 1 ∧ (s.injRun p.1.channel).state = .isolated) ∧
    (stands .estop ↔ s.stop.estop = true) ∧ (stands .laneStop ↔ tracked) ∧
    (stands .valveNotClosed ↔ tracked ∨ marked) ∧
    ¬ stands .meterSurge ∧ ¬ stands .meterGap ∧ ¬ stands .valveNoResponse ∧ ¬ stands .blendDeviation)

/-- The frame of the arm commands CANCEL, START, RESUME, PAUSE, STOP, FAULT RESET and RELEASE, whatever
they bring about: other arms keep their contexts, closes, valve channels and granted shares, the Lane Stop
Unit, the permit bits, the tables and the waiting reports stay, and orders join only the tails of the normal
queues. -/
def Obligations.ArmCommandsLeaveTheOtherArms : Prop :=
  ∀ (s t : State) (h : ReqHead) (r : Request) (i : Byte) (takes : ArmCtx → Bool) (a : Arm),
    armCommand r = some (i, takes) → (∀ j id n p, r ≠ .authorize j id n p) → armOf i = some a →
    NextRequest s h r → exec (commandOf (.request h r)) s = .next t →
    (∀ b, b ≠ a → KeepsArm b s t) ∧ t.stop = s.stop ∧ t.arms.permits = s.arms.permits ∧
      t.arms.permitTimer = s.arms.permitTimer ∧ t.meter.unassigned = s.meter.unassigned ∧
      t.portU.framer = s.portU.framer ∧ t.portU.sending = s.portU.sending ∧
      t.portU.counters = s.portU.counters ∧ KeepsPort s.d0 t.d0 ∧ KeepsPort s.d1 t.d1 ∧
      KeepsConfiguration s t ∧ KeepsWaiting s t

/-! ## Status, alerts, records -/

/-- R157: TABLE READ with an index outside the table's range is answered BAD_INDEX; otherwise TABLE DATA carries
the table, the index and the record as stored, with the run state for METER and INJECTOR, in the octets that
tableOctets lays out. R160: ARM STATUS is
answered BAD_INDEX for an arm above 7 and BAD_VALUE for a part above 2 (that the arm is checked before the part
is the model's choice, log 33), and otherwise ARM REPORT with the part
asked for, of 32, 43 or 4 + 16 n octets, n the lines from the first line onward, three at most. Both change
nothing of the block; the model counts such an answer for its free octets (log 7). R161, R15: ENGINE STATUS is
answered BAD_VALUE for a part above 2, for the clear flag with a part other than 1, and for a clear octet that
is neither yes nor no (R170); otherwise ENGINE REPORT, and part 1 with the clear flag zeroes the sixteen
counters it reports. -/
def Obligations.ReadRequestsReport : Prop :=
  (∀ (s : State) (h : ReqHead) (t : TableId) (i : Byte), NextRequest s h (.tableRead t i) →
     (¬ IndexFits t i → Refuses s h (.tableRead t i) .badIndex) ∧
     (IndexFits t i → ∃ os, tableOctets s t i = some os ∧
       exec (.tableRead h t i) s = .next (answer h 0xC1 ([tableCode t, i] ++ os)
         { s.take (.request h (.tableRead t i)) with free := s.free + 1 }))) ∧
  (∀ (s : State) (h : ReqHead) (i part first : Byte), NextRequest s h (.armStatus i part first) →
     let r := Request.armStatus i part first
     let u := s.take (.request h r)
     let reports (payload : List Byte) : Prop := exec (.armStatus h i part first) s =
       .next (answer h 0xC2 payload { u with free := s.free + 1 })
     (7 < i.toNat → Refuses s h r .badIndex) ∧
     (i.toNat ≤ 7 → 2 < part.toNat → Refuses s h r .badValue) ∧
     (∀ a, armOf i = some a →
       (part = 0 → reports (armReport0 s a)) ∧ (part = 1 → reports (armReport1 s a)) ∧
       (part = 2 → reports (armReport2 s a first)) ∧
       (armReport0 s a).length = 32 ∧ (armReport1 s a).length = 43 ∧
       (armReport2 s a first).length = 4 + 16 *
         min 3 (min (s.ctxOf a).lines.length (s.ctxOf a).recipe.lines.length - first.toNat))) ∧
  (∀ (s : State) (h : ReqHead) (part clear : Byte), NextRequest s h (.engineStatus part clear) →
     let r := Request.engineStatus part clear
     let u := s.take (.request h r)
     let c := exec (.engineStatus h part clear) s
     (2 < part.toNat ∨ 1 < clear.toNat ∨ clear = 1 ∧ part ≠ 1 → Refuses s h r .badValue) ∧
     (part = 0 → clear = 0 → c = .next (answer h 0xC3 (engineReport0 s) u)) ∧
     (part = 1 → clear = 0 → c = .next (answer h 0xC3 (engineReport1 s) u)) ∧
     (part = 2 → clear = 0 → c = .next (answer h 0xC3 (engineReport2 s) u)) ∧
     (part = 1 → clear = 1 → c = .next (answer h 0xC3 (engineReport1 s) { u with
       portU := { u.portU with counters := ⟨0, 0, 0, 0, 0⟩, requestsDropped := 0 }
       d0 := { u.d0 with counters := ⟨0, 0, 0, 0, 0⟩ }
       d1 := { u.d1 with counters := ⟨0, 0, 0, 0, 0⟩ } })) ∧
     (engineReport0 s).length = 25 ∧ (engineReport1 s).length = 33 ∧ (engineReport2 s).length = 33)

/-- R165: ALERT ACK removes each entry at or below the mark whose condition is over and acknowledges each
whose condition is present; at or above the highest lost number it clears the lost-alert count; ALERT_N is
judged afresh. Nothing else changes. -/
def Obligations.AlertAckCoversTheMark : Prop :=
  ∀ (s : State) (h : ReqHead) (mark : Word32), NextRequest s h (.alertAck mark) →
    CarriesOut s h (.alertAck mark) (fun u =>
      let m := mark.toNat
      let xs := u.rep.alerts.filterMap (fun x =>
        if m < x.number then some x
        else if x.present then some { x with acknowledged := true } else none)
      let out := xs.any (fun x =>
        !x.acknowledged && decide (u.mgmt.settings.pinLevel ≤ levelOf x.kind))
      let clears := decide (u.rep.highestLost ≤ m)
      { u with rep := { u.rep with
          alerts := xs, alertOut := out, lost := if clears then 0 else u.rep.lost,
          highestLost := if clears then 0 else u.rep.highestLost } })

/-- R167, R168: RECORD FETCH is answered with the oldest record, which stays, or EMPTY; RECORD ACK removes
the oldest record when the id is its id, and is answered NOT_OLDEST for another id and EMPTY when there is
none. The octets of an absent field are free values, and the model counts the answer for them (log 7). -/
def Obligations.RecordsLeaveOldestFirst : Prop :=
  ∀ (s : State) (h : ReqHead),
    (NextRequest s h .recordFetch → s.rep.records = [] → Refuses s h .recordFetch .empty) ∧
    (∀ x rest, NextRequest s h .recordFetch → s.rep.records = x :: rest →
      exec (.recordFetch h) s = .next (answer h 0xC5 (recordOctets s.free x)
        { s.take (.request h .recordFetch) with free := s.free + 1 })) ∧
    (∀ id, NextRequest s h (.recordAck id) → s.rep.records = [] →
      Refuses s h (.recordAck id) .empty) ∧
    (∀ id x rest, NextRequest s h (.recordAck id) → s.rep.records = x :: rest → x.id ≠ id →
      Refuses s h (.recordAck id) .notOldest) ∧
    (∀ id x rest, NextRequest s h (.recordAck id) → s.rep.records = x :: rest → x.id = id →
      CarriesOut s h (.recordAck id) (fun u => { u with rep := { u.rep with records := rest } }))

/-- R162: a raise advances the raise counter, saturating, and takes its value; it refreshes the entry of its
kind and subject, or makes one while the list holds fewer than 32, or is lost and counted. R163: judging the
conditions takes it from each entry whose cause has ended, removes such an entry when it is acknowledged, and
leaves every other entry. ALERT_N is judged afresh in both (R166). Nothing but the Reporting Unit changes. That
an entry keeps its place and a new one stands last is the model's choice (log 17), and that all entries are
judged at once is its reading of R163 (log 12). R164: ALERT SNAPSHOT is answered with the mark, the number of
entries, the lost-alert count, a more flag, and the first five of the entries whose raise numbers lie above the
start number, in ascending order, and changes nothing. -/
def Obligations.AlertListFollowsItsRules : Prop :=
  (∀ (k : AlertKind) (j : Subject) (s : State),
     let t := enterAlert k j s
     let n := min (s.rep.raiseCounter + 1) 4294967295
     let held := ∃ x ∈ s.rep.alerts, x.kind = k ∧ x.subject = j
     let out (xs : List Alert) : Bool := xs.any (fun x =>
       !x.acknowledged && decide (s.mgmt.settings.pinLevel ≤ levelOf x.kind))
     t = { s with rep := t.rep } ∧
     t.rep.raiseCounter = n ∧ t.rep.records = s.rep.records ∧ t.rep.reserved = s.rep.reserved ∧
     (held → t.rep.alerts = s.rep.alerts.map (fun x =>
         if x.kind = k ∧ x.subject = j then
           { x with number := n, acknowledged := false, present := true } else x) ∧
       t.rep.lost = s.rep.lost ∧ t.rep.highestLost = s.rep.highestLost ∧
       t.rep.alertOut = out t.rep.alerts) ∧
     (¬ held → s.rep.alerts.length < 32 → t.rep.alerts = s.rep.alerts ++
         [{ kind := k, subject := j, number := n, acknowledged := false, present := true }] ∧
       t.rep.lost = s.rep.lost ∧ t.rep.highestLost = s.rep.highestLost ∧
       t.rep.alertOut = out t.rep.alerts) ∧
     (¬ held → 32 ≤ s.rep.alerts.length → t.rep.alerts = s.rep.alerts ∧
       t.rep.lost = min (s.rep.lost + 1) 65535 ∧ t.rep.highestLost = n ∧
       t.rep.alertOut = s.rep.alertOut)) ∧
  (∀ s : State,
     let xs := s.rep.alerts.filterMap (fun x =>
       if x.present = true ∧ standing s x.kind x.subject = false then
         if x.acknowledged then none else some { x with present := false }
       else some x)
     let out := xs.any (fun x =>
       !x.acknowledged && decide (s.mgmt.settings.pinLevel ≤ levelOf x.kind))
     settleAlerts s = { s with rep := { s.rep with alerts := xs, alertOut := out } }) ∧
  (∀ (s : State) (h : ReqHead) (start : Word32), NextRequest s h (.alertSnapshot start) →
     ∃ xs : List Alert, xs.Perm (s.rep.alerts.filter (fun x => decide (start.toNat < x.number))) ∧
       xs.Pairwise (fun x y => x.number ≤ y.number) ∧
       exec (.alertSnapshot h start) s = .next (answer h 0xC4
         (be 4 s.rep.raiseCounter ++ be 1 s.rep.alerts.length ++ be 2 s.rep.lost ++
           [if 5 < xs.length then 1 else 0] ++ (xs.take 5).flatMap alertOctets)
         (s.take (.request h (.alertSnapshot start)))))

/-! ## The engine as a whole -/

/-- R159: MODE is answered BAD_VALUE for a mode or a force octet that names nothing; RUN is always taken; STANDBY is
taken in STANDBY and when no arm is active, and answered ARMS_ACTIVE with the force flag clear while one is. R94:
with the force flag the mode stop is applied to each active arm and the mode becomes STANDBY in the same act; the
premise on the valves keeps a close from completing at once (R81). The mode stop writes the records of the arms in
WAITING and PAUSED (STOPPED) and in HALTED (ABANDONED) in ascending arm number, and frees the reserved slots of
those and of the arms in READY. -/
def Obligations.ModeFollowsTheArms : Prop :=
  (∀ (s : State) (h : ReqHead) (m f : Byte), NextRequest s h (.mode m f) →
     let active := ∃ a, isActive (s.phase a) = true
     let becomes (x : Mode) : Prop := CarriesOut s h (.mode m f) (fun u =>
       { u with mgmt := { u.mgmt with mode := x } })
     (1 < m.toNat ∨ 1 < f.toNat → Refuses s h (.mode m f) .badValue) ∧
     (m = 1 → f.toNat ≤ 1 → becomes .run) ∧
     (m = 0 → f.toNat ≤ 1 → s.mgmt.mode = .standby ∨ ¬ active → becomes .standby) ∧
     (m = 0 → f = 0 → s.mgmt.mode = .run → active → Refuses s h (.mode m f) .armsActive)) ∧
  (∀ (s : State) (h : ReqHead), NextRequest s h (.mode 0 1) → s.mgmt.mode = .run →
     (∃ a, isActive (s.phase a) = true) →
     (∀ a, isFlowing (s.phase a) = true → valveCondition s a = false) →
     ∃ t, exec (.mode h 0 1) s = .next t ∧ RepliedDone s t h (.mode 0 1) ∧
       t.mgmt = { s.mgmt with mode := .standby } ∧ t.relay = s.relay ∧ t.stop = s.stop ∧
       t.rep.records = s.rep.records ++ modeStopRecords s ∧
       t.rep.reserved = s.rep.reserved - (modeStopRecords s).length -
         (allArms.filter (fun a => decide (s.phase a = .ready))).length ∧
       (∀ a, let c := s.ctxOf a
         (c.state = .idle ∨ c.state = .done → t.ctxOf a = c) ∧
         (c.state = .ready → t.ctxOf a = .idle) ∧
         (c.state = .waiting ∨ c.state = .paused ∨ c.state = .halted →
           t.ctxOf a = { c with state := .done, reservedSlot := false }) ∧
         (c.state = .waiting → a ∉ t.header.queue) ∧
         (isFlowing c.state = true → t.ctxOf a = { c with
           state := .closing, closeReason := some .stop, flow := 0, ethDemand := 0,
           gasDemand := 0 }) ∧
         (c.state = .closing → c.closeReason = some .theEnd ∨ c.closeReason = some .pause →
           t.ctxOf a = { c with closeReason := some .stop }) ∧
         (c.state = .closing → c.closeReason = some .stop ∨ c.closeReason = some .fault →
           t.ctxOf a = c)))

/-- R155, R17, R95: RESTART is answered BAD_VALUE when the confirm field is not the engine's own address.
Otherwise RESULT DONE joins the Port U queue first and every block takes its restart values: batches end with
records in ascending arm number, the queues keep what R17 keeps, counters and run states are cleared, and the
lane stop of step 9 starts. The tables, the settings, the seconds, the held reports, the sequences and the
not-closed marks are kept. That the mark of a called pass and the answers given to yields are cleared too is the
model's reading (logs 13, 18), and its turn behind the waiting frames is log 14. -/
def Obligations.RestartFollowsItsNineSteps : Prop :=
  ∀ (s : State) (h : ReqHead) (confirm : Byte), NextRequest s h (.restart confirm) →
    (confirm ≠ s.mgmt.ownAddr → Refuses s h (.restart confirm) .badValue) ∧
    (confirm = s.mgmt.ownAddr → ∃ t, exec (.restart h confirm) s = .next t ∧
      (t.portU = { s.portU with
        waiting := dropItem (.request h (.restart confirm)) s.portU.waiting
        queue := s.portU.queue ++ [resultFrame s h 0x8A .done]
        counters := .zero
        requestsDropped := 0 }) ∧
      ((∀ a, t.ctxOf a = .idle ∧ t.closeOf a = .cleared) ∧ t.arms.permits = 0 ∧
        t.arms.permitTimer = none ∧ t.rep.records = s.rep.records ++ restartRecords s ∧
        t.rep.reserved = s.rep.reserved - (restartRecords s).length) ∧
      (t.header = { s.header with
        effective := s.header.pendingCap.getD s.header.effective, pendingCap := none,
        grants := Vector.replicate 8 .zero, queue := [], grantCounter := 0,
        waitTimers := Vector.replicate 8 .stopped, spacing := none, passCalled := false,
        yieldAnswers := [] }) ∧
      (∀ c, t.injRun c = { s.injRun c with
        state := if (s.injRun c).state = .stroking then .available else (s.injRun c).state,
        owed0 := 0, owed1 := 0, inFlight := none, strokeReady := none }) ∧
      (∀ a st, t.chan a st = { ValveChan.initial with
        nextSeq := (s.chan a st).nextSeq, held := (s.chan a st).held }) ∧
      (∀ a, sel t.reg.watch a = false) ∧
      (∀ p, (t.portD p).normal =
          (begunPart (normalBegun (s.portD p)) (s.portD p).normal).1 ++
          (begunPart (normalBegun (s.portD p)) (s.portD p).normal).2.filter
            (fun f => decide (f.owner = .relayed)) ∧
        (t.portD p).counters = .zero ∧ (t.portD p).framer = (s.portD p).framer ∧
        (t.portD p).sending = (s.portD p).sending ∧ (t.portD p).reports = (s.portD p).reports ∧
        (t.portD p).urgent = ((laneStop 0xFF s).portD p).urgent) ∧
      ((∀ i, t.meterRun i = .cleared) ∧ (∀ a, sel t.meter.unassigned a = 0)) ∧
      (t.rep.alerts = [{ kind := .restarted, subject := .nobody, number := 1, acknowledged := false,
                         present := false }] ∧
        t.rep.raiseCounter = 1 ∧ t.rep.lost = 0 ∧ t.rep.highestLost = 0) ∧
      (t.stop.marks = s.stop.marks ∧ t.stop.trip = tripLine s.stop.marks ∧
        t.stop.estop = s.stop.estop ∧ t.stop.stopSeq = (laneStop 0xFF s).stop.stopSeq ∧
        t.stop.tracking = if stopStations s 0xFF = [] then []
          else [{ members := (stopStations s 0xFF).map Prod.fst, retry := 0,
                  timer := some s.mgmt.settings.retryInterval }]) ∧
      t.mgmt = { s.mgmt with mode := .standby } ∧ t.relay = s.relay ∧
      t.meter.table = s.meter.table ∧ t.arms.table = s.arms.table ∧
      t.arms.recipes = s.arms.recipes ∧ t.inj.table = s.inj.table ∧ KeepsWaiting s t)

/-- R147, R10, R148: the stations of a lane stop are the valid valve entries that name an arm of its set. With
none, nothing is sent or tracked. Otherwise each port that a station's entry names is offered one STOP
BROADCAST of the set, the stations leave the sets they belong to, and a set of them starts with retry count 0. -/
def Obligations.LaneStopsTrackEveryStation : Prop :=
  ∀ (s : State) (arms : Byte),
    let found := stopStations s arms
    (∀ n e, (n, e) ∈ found ↔ (1 ≤ n.toNat ∧ n.toNat ≤ 0xDF) ∧ nodeAt s n = e ∧ e.valid = true ∧
      isValveRole e.role ∧ arms.getLsbD e.arm.val = true) ∧
    (found = [] → laneStop arms s = s) ∧
    (found ≠ [] →
      let t := laneStop arms s
      t.stop.tracking = s.stop.tracking.filterMap (withoutMembers (found.map Prod.fst)) ++
        [{ members := found.map Prod.fst, retry := 0, timer := some s.mgmt.settings.retryInterval }] ∧
      t.stop.marks = s.stop.marks ∧ t.stop.trip = s.stop.trip ∧
      (∀ p, (∀ n e, (n, e) ∈ found → e.port ≠ p) → t.portD p = s.portD p) ∧
      (∀ p n e, (n, e) ∈ found → e.port = p →
        let begun := begunPart (urgentBegun (s.portD p)) (s.portD p).urgent
        (∀ q old xs ys, begun.2 = xs ++ .broadcast q old :: ys → (∀ x ∈ xs, ∀ q b, x ≠ .broadcast q b) →
          (t.portD p).urgent = begun.1 ++ xs ++ .broadcast q (old ||| arms) :: ys) ∧
        ((∀ x ∈ begun.2, ∀ q b, x ≠ .broadcast q b) →
          ∃ q, (t.portD p).urgent = (s.portD p).urgent ++ [.broadcast q arms] ∧
            (p = .d0 → q = s.stop.stopSeq))) ∧
      t.arms = s.arms ∧ t.rep = s.rep ∧ t.reg = s.reg ∧ t.header = s.header ∧ t.inj = s.inj ∧
      t.meter = s.meter ∧ t.relay = s.relay ∧ t.mgmt = s.mgmt ∧ t.portU = s.portU)

/-- What a lane stop's fault does to the arms of a set (R85, R90, R89): an arm of the set in a flowing state
or WAITING enters CLOSING with reason FAULT and takes the fault code if it holds none; every other arm keeps
its context. -/
def Obligations.LaneStopRequestsFaultTheirArms : Prop :=
  ∀ (s : State) (h : ReqHead) (arms : Byte), NextRequest s h (.laneStop arms) →
    (arms = 0 → Refuses s h (.laneStop arms) .badValue) ∧
    (arms ≠ 0 →
      (∀ a, inSet arms a = true → isRunning (s.phase a) = true → valveCondition s a = false) →
      ∃ t, exec (.laneStop h arms) s = .next t ∧ RepliedDone s t h (.laneStop arms) ∧
        (∀ a, inSet arms a = true → isRunning (s.phase a) = true →
          t.ctxOf a = { s.ctxOf a with
            state := .closing, closeReason := some .fault,
            faultCode := some ((s.ctxOf a).faultCode.getD .laneStop), flow := 0, ethDemand := 0,
            gasDemand := 0 } ∧ (s.phase a = .waiting → a ∉ t.header.queue)) ∧
        (∀ a, ¬ (inSet arms a = true ∧ isRunning (s.phase a) = true) → t.ctxOf a = s.ctxOf a) ∧
        t.stop = (laneStop arms s).stop ∧ (∀ p, (t.portD p).urgent = ((laneStop arms s).portD p).urgent) ∧
        t.rep.records = s.rep.records ∧ KeepsConfiguration s t ∧ KeepsWaiting s t)

/-- R152, R89: at the assertion of ESTOP_N a lane stop for all arms starts, the subjectless ESTOP alert is raised,
and every arm in a flowing state or WAITING takes the fault ESTOP; a repeated assertion is no change of level
(log 22). The release ends the conditions of the ESTOP alerts and moves no arm. R161: the seconds tick adds one,
saturating, and changes nothing else. -/
def Obligations.EstopAndTheSecondsTick : Prop :=
  (∀ s : State,
     (s.stop.estop = true → exec .estopAsserted s = .next s) ∧
     (s.stop.estop = false →
       (∀ a, isRunning (s.phase a) = true → valveCondition s a = false) →
       ∃ t, exec .estopAsserted s = .next t ∧ t.stop.estop = true ∧
         t.stop.tracking = (laneStop 0xFF s).stop.tracking ∧
         (∀ p, (t.portD p).urgent = ((laneStop 0xFF s).portD p).urgent) ∧
         (∀ a, isRunning (s.phase a) = true →
           t.ctxOf a = { s.ctxOf a with
             state := .closing, closeReason := some .fault,
             faultCode := some ((s.ctxOf a).faultCode.getD .estop), flow := 0, ethDemand := 0,
             gasDemand := 0 } ∧ (s.phase a = .waiting → a ∉ t.header.queue)) ∧
         (∀ a, isRunning (s.phase a) = false → t.ctxOf a = s.ctxOf a) ∧
         (s.rep.alerts.length < 32 → ∃ x ∈ t.rep.alerts,
           x.kind = .estop ∧ x.subject = .nobody ∧ x.acknowledged = false ∧ x.present = true) ∧
         t.portU = s.portU ∧ KeepsConfiguration s t ∧ KeepsWaiting s t)) ∧
  (∀ s : State,
     (s.stop.estop = true → exec .estopReleased s =
       .next (settleAlerts { s with stop := { s.stop with estop := false } })) ∧
     (s.stop.estop = false → exec .estopReleased s = .next s) ∧
     exec .engineSecondsTick s = .next { s with mgmt := { s.mgmt with
       seconds := min (s.mgmt.seconds + 1) 4294967295 } })

/-! ## Reports and expiries -/

/-- R55 to R65, METER_SAMPLE: a sample on an invalid slot and a repeated sequence are dropped; a baseline
attributes nothing; any other is accepted, and a delta within the surge limit is converted with the slot's
remainder and goes to the batch or to the unassigned volume by the arm's state; a volume of 0 cL leaves the
unassigned volumes. No other arm is touched, whatever the order of the sample's acts (log 5). R81, R83: a quiet
sample without a fault settles its meter while the valve condition of an arm in CLOSING holds, and completes the
close when the other waited meter is settled or silent; that the settled meter is told by the sample's arm and
stream, whichever slot the arm's meter has by then, is the model's choice (log 32). -/
def Obligations.SamplesMeterTheirVolume : Prop :=
  (∀ raw bands, bands ≠ [] → bandFactor raw bands =
    match bands.find? (fun b => decide (raw ≤ b.bound)), bands.getLast? with
    | some b, _ => b.factor
    | none, some b => b.factor
    | none, none => 0) ∧
  (∀ (s : State) (m : Sample) (o : SampleOrder), NextSample s m →
    let r := s.meterRec m.slot
    let x := s.meterRun m.slot
    let c := s.ctxOf m.arm
    let count := if r.format = 0 then m.count.toNat % 65536 else m.count.toNat
    let delta :=
      if r.format = 0 then (count + 65536 - x.lastCount % 65536) % 65536
      else if r.format = 1 then (count + 16777216 - x.lastCount % 16777216) % 16777216
      else count
    let raw := delta * 1000 * 60000 / (r.k * max m.interval.toNat 1)
    let num := delta * bandFactor raw r.bands + x.remainder
    let volume := num / r.k
    let keepsTotals (t : State) (b : Arm) : Prop :=
      (t.ctxOf b).g = (s.ctxOf b).g ∧ (t.ctxOf b).e = (s.ctxOf b).e
    (r.valid = false ∨ x.lastSeq = some m.seq →
      exec (.meterSample m o) s = .next (s.takeSample m)) ∧
    (r.valid = true → x.lastSeq = none → ∃ t, exec (.meterSample m o) s = .next t ∧
      (t.meterRun m.slot).lastSeq = some m.seq ∧ (t.meterRun m.slot).lastCount = count ∧
      (t.meterRun m.slot).remainder = x.remainder ∧ (∀ b, keepsTotals t b) ∧
      t.meter.unassigned = s.meter.unassigned) ∧
    (∀ q, r.valid = true → x.lastSeq = some q → q ≠ m.seq →
      ∃ t, exec (.meterSample m o) s = .next t ∧
        (let y := t.meterRun m.slot
         y.lastSeq = some m.seq ∧ y.lastCount = count ∧ y.headFault = m.fault ∧ y.silent = false ∧
           y.gapCount = if m.seq = q + 1 then x.gapCount else min (x.gapCount + 1) 65535) ∧
        (r.surge < delta →
          (t.meterRun m.slot).remainder = x.remainder ∧ (t.meterRun m.slot).lastFlow = x.lastFlow ∧
          (∀ b, keepsTotals t b) ∧ t.meter.unassigned = s.meter.unassigned) ∧
        (delta ≤ r.surge →
          (t.meterRun m.slot).remainder = num % r.k ∧ (t.meterRun m.slot).lastFlow = raw) ∧
        (delta ≤ r.surge → takesVolume c.state = true →
          (t.ctxOf m.arm).g =
            (if m.stream = .gasoline then min (c.g + volume) 4294967295 else c.g) ∧
          (t.ctxOf m.arm).e =
            (if m.stream = .ethanol then min (c.e + volume) 4294967295 else c.e) ∧
          (t.meterRun m.slot).stray = false ∧ t.meter.unassigned = s.meter.unassigned) ∧
        (delta ≤ r.surge → takesVolume c.state = false →
          (let open' := decide (0 < volume ∧ (c.state = .ready ∨ c.state = .waiting))
           t.ctxOf m.arm = { c with flowAfterClose := c.flowAfterClose || open' }) ∧
          (t.meterRun m.slot).stray = decide (0 < volume) ∧
          (∀ b, sel t.meter.unassigned b = if b = m.arm ∧ 0 < volume
            then min (sel s.meter.unassigned b + volume) 4294967295 else sel s.meter.unassigned b)) ∧
        (∀ b, b ≠ m.arm → KeepsArm b s t))) ∧
  (∀ (s : State) (m : Sample) (o : SampleOrder), InOrderSample s m → deltaRead s m = 0 → m.fault = false →
    s.phase m.arm = .closing → valveCondition s m.arm = true →
    let others := ∀ st, st ≠ m.stream → Waits s m.arm st → Settled s m.arm st
    (¬ others → ∃ t, exec (.meterSample m o) s = .next t ∧
      t.phase m.arm = .closing ∧ Settled t m.arm m.stream) ∧
    (∀ why b, (∀ st, st ≠ m.stream → meterSlot s m.arm st ≠ some m.slot) → others →
      (s.ctxOf m.arm).closeReason = some why → (s.ctxOf m.arm).batch = some b →
      ∃ t c, exec (.meterSample m o) s = .next t ∧ ClosedBy s t m.arm c b why ∧
        c.g = (ctxWithVolume s m).g ∧ c.e = (ctxWithVolume s m).e ∧
        (∀ x, x ≠ m.arm → KeepsArm x s t)))

/-- R65, R74, R75, R97 to R101, METER_SAMPLE of an in-order sample without a fault. For an arm in a flowing state:
when the volume left is at or below the close-ahead volume the arm enters CLOSING with reason END, with no trim
step and no deviation check; otherwise the trim takes one step (R99), the phase follows the volumes (R74), the
deviation check of an arm in FILLING or TOPPING counts or clears its run (R101), and the flow target and the
demands follow from the phase, the trim, pace hold and the share cap (R98, R100) and are handed to the channels;
when the run count reaches the deviation count the arm closes for BLEND_DEVIATION. For an arm in CLOSING, PAUSED
or HALTED the targets are 0. All this whatever the order of the sample's acts (log 5). The premise on the valves
keeps a close from completing at once (R81). -/
def Obligations.SamplesAreEvaluated : Prop :=
  ∀ (s : State) (m : Sample) (o : SampleOrder), InOrderSample s m → m.fault = false →
    valveCondition s m.arm = false →
    let a := m.arm
    let c := s.ctxOf a
    let v := ctxWithVolume s m
    let left := v.preset - (v.g + v.e)
    let ends := left ≤ v.recipe.closeAhead
    let next : ArmPhase :=
      if c.state = .starting ∧ v.recipe.startVolume ≤ v.g + v.e - v.phaseBase then
        if left ≤ v.recipe.taperVolume then .topping else .filling
      else if c.state = .filling ∧ left ≤ v.recipe.taperVolume then .topping
      else c.state
    let judged := c.state = .filling ∨ c.state = .topping
    let above := v.recipe.devLimit < devOf v
    (isFlowing c.state = true → ends → ∃ t, exec (.meterSample m o) s = .next t ∧ t.phase a = .closing ∧
      (t.ctxOf a).closeReason = some .theEnd ∧ (t.ctxOf a).flow = 0 ∧ (t.ctxOf a).trim = c.trim ∧
      (t.ctxOf a).devRun = c.devRun ∧ (t.ctxOf a).maxDev = c.maxDev ∧
      t.closeOf a = { timer := some s.mgmt.settings.closeLimit, gasSettled := false,
                      ethSettled := false } ∧ DemandsTold t a) ∧
    (isFlowing c.state = true → ¬ ends → ¬ DevFaults v → ∃ t, exec (.meterSample m o) s = .next t ∧
      t.phase a = next ∧ (t.ctxOf a).trim = trimAfter v ∧ FlowFollows s a (t.ctxOf a) ∧ DemandsTold t a ∧
      (t.ctxOf a).closeReason = c.closeReason ∧ (t.ctxOf a).faultCode = c.faultCode ∧
      (judged → DevChecked v → (t.ctxOf a).maxDev = max c.maxDev (devOf v) ∧
        (above → (t.ctxOf a).devRun = min (c.devRun + 1) 15 ∧ (t.ctxOf a).deviationSeen = true) ∧
        (¬ above → (t.ctxOf a).devRun = 0 ∧ (t.ctxOf a).deviationSeen = c.deviationSeen)) ∧
      (judged → ¬ DevChecked v → (t.ctxOf a).maxDev = c.maxDev ∧ (t.ctxOf a).devRun = c.devRun ∧
        (t.ctxOf a).deviationSeen = c.deviationSeen)) ∧
    (judged → ¬ ends → DevFaults v → ∃ t, exec (.meterSample m o) s = .next t ∧ t.phase a = .closing ∧
      (t.ctxOf a).closeReason = some .fault ∧
      (t.ctxOf a).faultCode = some (c.faultCode.getD .blendDeviation) ∧
      (t.ctxOf a).trim = trimAfter v ∧ (t.ctxOf a).devRun = min (c.devRun + 1) 15 ∧
      (t.ctxOf a).deviationSeen = true ∧ (t.ctxOf a).flow = 0 ∧ DemandsTold t a ∧
      (s.rep.alerts.length < 30 → Alerted t .blendDeviation (.arm a))) ∧
    (c.state = .closing ∨ c.state = .paused ∨ c.state = .halted →
      ∃ t, exec (.meterSample m o) s = .next t ∧ t.phase a = c.state ∧ (t.ctxOf a).flow = 0 ∧
        (t.ctxOf a).ethDemand = 0 ∧ (t.ctxOf a).gasDemand = 0 ∧ (t.ctxOf a).trim = c.trim ∧
        (t.ctxOf a).devRun = c.devRun ∧ (t.ctxOf a).maxDev = c.maxDev ∧ DemandsTold t a)

/-- R133, R134, METER_SAMPLE: the strokes due of each line of the arm are worked out from the blend total after an
in-order sample; those it gains are owed, up to 15 at the outlet, while the arm is in a flowing state or CLOSING
and its channel is AVAILABLE or STROKING, and dropped otherwise, as are those beyond 15, which raise
ADDITIVE_OVERRUN, whatever the order of the sample's acts (log 5). An UNCONFIGURED channel drops its strokes: the
model's choice (log 20). R135: a channel that gains strokes is left AVAILABLE only when its stroke is ready and
waits, or its head is not bound. R141: pace hold follows the owed counts. The premises on the channels are R132's:
each keeps its law, whose invariant is EveryStepKeepsTheChannels, and an arm has at most one line on a channel;
the one on the valves keeps a close from completing at once (R81). -/
def Obligations.StrokesFallDueWithTheVolume : Prop :=
  ∀ (s : State) (m : Sample) (o : SampleOrder), ChannelsOk s → InOrderSample s m → m.fault = false →
    valveCondition s m.arm = false → takesVolume (s.phase m.arm) = true →
    ((s.ctxOf m.arm).lines.map (fun l => l.channel)).Nodup →
    let a := m.arm
    let lines := (s.ctxOf a).lines
    let v := ctxWithVolume s m
    let due (l : LineState) : Nat := (v.g + v.e + l.vs / 2) / l.vs
    let serves (l : LineState) : Prop := isMoving (s.phase a) = true ∧
      ((s.injRun l.channel).state = .available ∨ (s.injRun l.channel).state = .stroking)
    let owed (l : LineState) : Nat := (s.injRun l.channel).owed l.outlet
    let gains (l : LineState) : Prop := l ∈ lines ∧ l.due < due l
    ∃ t, exec (.meterSample m o) s = .next t ∧
      ((t.ctxOf a).lines.map (fun l => (l.channel, l.outlet, l.vs, l.delivered)) =
        lines.map (fun l => (l.channel, l.outlet, l.vs, l.delivered))) ∧
      (∀ l ∈ lines, ∀ l' ∈ (t.ctxOf a).lines, l'.channel = l.channel → l'.due = max l.due (due l) ∧
        (¬ gains l → l'.dropped = l.dropped) ∧
        (gains l → serves l → l'.dropped = l.dropped + (owed l + (due l - l.due) - 15)) ∧
        (gains l → ¬ serves l → l'.dropped = l.dropped + (due l - l.due))) ∧
      (∀ l, gains l → serves l →
        (t.injRun l.channel).owed l.outlet = min (owed l + (due l - l.due)) 15 ∧
        ((t.injRun l.channel).state = .available →
          (t.injRun l.channel).strokeReady ≠ none ∨ headBinding s l.channel = none) ∧
        (15 < owed l + (due l - l.due) → s.rep.alerts.length < 30 →
          Alerted t .additiveOverrun (.arm a))) ∧
      (∀ l, gains l → ¬ serves l → t.injRun l.channel = s.injRun l.channel) ∧
      ((∃ l, gains l ∧ serves l) → (s.ctxOf a).paceHold = false ∨
          (∃ l ∈ lines, (s.injRec l.channel).pace / 2 < owed l) → PaceFollows s t a) ∧
      ((∀ l, gains l → ¬ serves l) → (t.ctxOf a).paceHold = (s.ctxOf a).paceHold)

/-- R57, R59, R68, R85, METER_SAMPLE: METER_GAP at a gap under DELTA8 in a flowing state or CLOSING; METER_SURGE at a
delta above the surge limit where the volume would go to the batch; METER_HEAD_FAULT at a head fault in a flowing
state or CLOSING, once while the head-fault-raised mark stays set. An arm in a flowing state closes for the fault
taken first, whichever the sample's order makes it (log 5); one in CLOSING has its reason raised to FAULT; a PAUSED
arm goes to HALTED for a surge; a HALTED arm is given the alert alone. The premise on the valves keeps a close from
completing at once (R81). -/
def Obligations.SampleFaultsReachTheArm : Prop :=
  ∀ (s : State) (m : Sample) (o : SampleOrder), NextSample s m →
    (s.meterRec m.slot).valid = true → valveCondition s m.arm = false →
    (s.meterRun m.slot).lastSeq ≠ some m.seq →
    let a := m.arm
    let c := s.ctxOf a
    let moving := isMoving c.state = true
    let surge := (s.meterRun m.slot).lastSeq ≠ none ∧ (s.meterRec m.slot).surge < deltaRead s m ∧
      takesVolume c.state = true
    let gap := (∃ q, (s.meterRun m.slot).lastSeq = some q ∧ m.seq ≠ q + 1) ∧
      (s.meterRec m.slot).format = 2 ∧ moving
    let head := m.fault = true ∧ (s.meterRun m.slot).headRaised = false ∧ moving
    let raises (k : AlertKind) : Prop :=
      k = .meterGap ∧ gap ∨ k = .meterSurge ∧ surge ∨ k = .meterHeadFault ∧ head
    let deviates := deltaRead s m ≤ (s.meterRec m.slot).surge ∧ DevFaults (ctxWithVolume s m)
    ∃ t, exec (.meterSample m o) s = .next t ∧
      ((t.meterRun m.slot).headRaised =
        (m.fault && ((s.meterRun m.slot).headRaised || isMoving c.state))) ∧
      (s.rep.alerts.length < 28 → ∀ k, raises k → Alerted t k (.arm a)) ∧
      (isFlowing c.state = true → (∃ k, raises k) → t.phase a = .closing ∧
        (t.ctxOf a).closeReason = some .fault ∧ (t.ctxOf a).flow = 0 ∧
        ∃ k, (raises k ∨ k = .blendDeviation ∧ deviates) ∧
          (t.ctxOf a).faultCode = some (c.faultCode.getD k)) ∧
      (c.state = .closing → (∃ k, raises k) → t.phase a = .closing ∧
        (t.ctxOf a).closeReason = some .fault ∧
        (c.closeReason = some .fault → (t.ctxOf a).faultCode = c.faultCode) ∧
        (c.closeReason ≠ some .fault → ∃ k, raises k ∧
          (t.ctxOf a).faultCode = some (c.faultCode.getD k))) ∧
      (c.state = .paused → surge → t.phase a = .halted ∧
        (t.ctxOf a).faultCode = some (c.faultCode.getD .meterSurge)) ∧
      (c.state = .paused → ¬ surge → t.phase a = .paused ∧ (t.ctxOf a).faultCode = c.faultCode) ∧
      (isMoving c.state = false → c.state ≠ .paused → t.phase a = c.state ∧
        (t.ctxOf a).faultCode = c.faultCode) ∧
      (∀ b, b ≠ a → KeepsArm b s t)

/-- R103: a demand handed to a Valve Order Channel is compared with its reference. While an order is in flight,
or while the channel waits for a slot, a differing demand is latched and an equal one clears the latch; an IDLE
channel does nothing for an equal demand and places an order for a differing one. R104: an order joins the normal
queue of its station's port while that holds fewer than 16 frames, and is latched with the pending-slot mark set
otherwise; with no station bound nothing is placed. Nothing else changes. R100: the demands of a context are
handed to the gasoline channel first, and with R = 0 the ethanol channel is handed nothing. -/
def Obligations.DemandsAreHandedToTheChannels : Prop :=
  (∀ (s : State) (a : Arm) (st : Stream) (d : Nat),
     let c := s.chan a st
     let t := handDemand a st d s
     let differs := c.inFlight = none ∧ c.pendingSlot = none ∧ c.lastSent ≠ some d
     (∀ o, c.inFlight = some o →
       t = s.setChan a st { c with latched := if o.demand = d then none else some d }) ∧
     (c.inFlight = none → c.pendingSlot ≠ none →
       t = s.setChan a st { c with latched := if c.lastSent = some d then none else some d }) ∧
     (c.inFlight = none → c.pendingSlot = none → c.lastSent = some d → t = s) ∧
     (differs → station s a st = none → t = s.setChan a st { c with latched := none }) ∧
     (∀ n e, differs → station s a st = some (n, e) → (s.portD e.port).normal.length < 16 →
       t = (s.setPortD e.port { s.portD e.port with normal := (s.portD e.port).normal ++
         [{ frame := mkFrame n s.mgmt.ownAddr 0x20 c.nextSeq (be 2 d), owner := .valveOrder a st }]
         }).setChan a st { c with
           inFlight := some { seq := c.nextSeq, demand := d, departed := false, timer := none }
           latched := none, lastSent := some d, nextSeq := c.nextSeq + 1 }) ∧
     (∀ n e, differs → station s a st = some (n, e) → 16 ≤ (s.portD e.port).normal.length →
       t = s.setChan a st { c with latched := some d, pendingSlot := some e.port })) ∧
  (∀ (s : State) (a : Arm) (st : Stream),
     (∀ n e, station s a st = some (n, e) → Binds s n (valveRole st) a ∧ nodeAt s n = e) ∧
     (station s a st = none ↔ ∀ n, ¬ Binds s n (valveRole st) a)) ∧
  (∀ (s : State) (a : Arm),
     let c := s.ctxOf a
     let gasTold := handDemand a .gasoline c.gasDemand s
     handDemands a s =
       if c.recipe.ratio = 0 then gasTold else handDemand a .ethanol c.ethDemand gasTold)

/-- R81, R83, R91: a close is complete when the valve condition holds and every waited meter is settled. It takes the
arm to the state of its close reason: reason and settle record go, the shares are released, the owed strokes of
its lines move into the lines' dropped counts and fall to 0, a stroke in flight for a line charged OWED becomes
charged DROPPED, pace hold clears (R143), its silence timers stop, and an arm reaching DONE writes its record. R82,
CLOSE_LIMIT_EXPIRY: with the valve condition holding the close completes by its reason with the flag
FLOW_AFTER_CLOSE; otherwise a lane stop for the arm starts and it goes to HALTED with fault code VALVE_NOT_CLOSED
if it held none. A stopped timer does not expire (log 3). -/
def Obligations.ClosesEndByReason : Prop :=
  (∀ (s : State) (a : Arm) (why : CloseReason) (b : Batch),
     s.phase a = .closing → (s.ctxOf a).closeReason = some why → (s.ctxOf a).batch = some b →
     let c := s.ctxOf a
     let valves := heldClosed (s.chan a .gasoline) = true ∧
       (c.recipe.ratio = 0 ∨ heldClosed (s.chan a .ethanol) = true)
     let meters := ((s.closeOf a).gasSettled = true ∨ meterSilentNow s a .gasoline = true) ∧
       (c.recipe.ratio = 0 ∨ (s.closeOf a).ethSettled = true ∨ meterSilentNow s a .ethanol = true)
     let t := judgeClose a s
     (¬ (valves ∧ meters) → t = s) ∧
     (valves → meters →
       (t.phase a = match why with
         | .theEnd => .done | .stop => .done | .pause => .paused | .fault => .halted) ∧
       t.rep.records = s.rep.records ++ (match why with
         | .theEnd => [recordOf a c b .complete s.mgmt.seconds]
         | .stop => [recordOf a c b .stopped s.mgmt.seconds]
         | .pause => [] | .fault => []) ∧
       (t.ctxOf a).closeReason = none ∧ t.closeOf a = .cleared ∧
       (t.ctxOf a).g = c.g ∧ (t.ctxOf a).e = c.e ∧ (t.ctxOf a).faultCode = c.faultCode ∧
       (t.grantOf a).granted = 0 ∧ (t.grantOf a).order = none ∧ (t.grantOf a).yieldPending = false ∧
       (∀ l ∈ c.lines, (s.injRun l.channel).state ≠ .isolated →
         (t.injRun l.channel).owed l.outlet = 0) ∧
       ((c.lines.map (fun l => l.channel)).Nodup → (t.ctxOf a).lines = c.lines.map (fun l =>
         if (s.injRun l.channel).state = .isolated then l
         else { l with dropped := l.dropped + (s.injRun l.channel).owed l.outlet })) ∧
       (∀ l ∈ c.lines, ∀ k, (s.injRun l.channel).state ≠ .isolated →
         (s.injRun l.channel).inFlight = some k → k.outlet = l.outlet → k.charge = .owed →
         (t.injRun l.channel).inFlight = some { k with charge := .dropped }) ∧
       ((∀ l ∈ c.lines, 0 < (s.injRec l.channel).pace ∧
           ((s.injRun l.channel).state = .isolated → (s.injRun l.channel).owed l.outlet = 0)) →
         (t.ctxOf a).paceHold = false) ∧
       (∀ j ∈ boundSlots s a, (t.meterRun j).timer = none) ∧
       (∀ x, x ≠ a → KeepsArm x s t) ∧ KeepsConfiguration s t ∧ KeepsWaiting s t)) ∧
  (∀ (s : State) (a : Arm),
     let c := s.ctxOf a
     ((s.closeOf a).timer = none ∨ c.state ≠ .closing → exec (.closeLimitExpiry a) s = .next s) ∧
     (∀ lim why b, (s.closeOf a).timer = some lim → c.state = .closing →
       c.closeReason = some why → c.batch = some b → valveCondition s a = true →
       ∃ t, exec (.closeLimitExpiry a) s = .next t ∧
         (t.phase a = match why with
           | .theEnd => .done | .stop => .done | .pause => .paused | .fault => .halted) ∧
         (t.ctxOf a).flowAfterClose = true ∧ (t.ctxOf a).closeReason = none ∧
         t.rep.records = s.rep.records ++ (match why with
           | .theEnd => [recordOf a { c with flowAfterClose := true } b .complete s.mgmt.seconds]
           | .stop => [recordOf a { c with flowAfterClose := true } b .stopped s.mgmt.seconds]
           | .pause => [] | .fault => []) ∧
         t.stop = s.stop ∧ (∀ x, x ≠ a → KeepsArm x s t)) ∧
     (∀ lim, (s.closeOf a).timer = some lim → c.state = .closing → valveCondition s a = false →
       ∃ t, exec (.closeLimitExpiry a) s = .next t ∧ t.phase a = .halted ∧
         (t.ctxOf a).faultCode = some (c.faultCode.getD .valveNotClosed) ∧
         (t.ctxOf a).closeReason = none ∧ (t.grantOf a).granted = 0 ∧
         t.stop = (laneStop (1#8 <<< a.val) s).stop ∧ t.rep.records = s.rep.records ∧
         (∀ x, x ≠ a → KeepsArm x s t)))

/-- R67, METER_SILENCE_EXPIRY: the silent mark is set; with no entry naming the slot nothing else happens; a
flowing arm closes for METER_SILENT, and an arm in CLOSING with a lower reason escalates to FAULT. The
premise on the valves keeps the close from completing at once (R81). Where the silent mark was all that the close
of an arm in CLOSING waited for, the close completes in the same act, and after the fault, so the arm goes to
HALTED: the model's choice of order (log 26). A stopped timer does not expire (log 3). -/
def Obligations.SilenceRaisesMeterSilent : Prop :=
  ∀ (s : State) (i : Slot),
    ((s.meterRun i).timer = none → exec (.meterSilenceExpiry i) s = .next s) ∧
    (∀ lim, (s.meterRun i).timer = some lim → slotArm s i = none →
      exec (.meterSilenceExpiry i) s =
        .next (s.setMeterRun i { s.meterRun i with silent := true, timer := none })) ∧
    (∀ lim a, (s.meterRun i).timer = some lim → slotArm s i = some a →
      valveCondition s a = false →
      ∃ t, exec (.meterSilenceExpiry i) s = .next t ∧ (t.meterRun i).silent = true ∧
        (isFlowing (s.phase a) = true → t.ctxOf a = closedByFault (s.ctxOf a) .meterSilent) ∧
        (s.phase a = .closing → (s.ctxOf a).closeReason ≠ some .fault → t.ctxOf a =
          { s.ctxOf a with
            faultCode := some ((s.ctxOf a).faultCode.getD .meterSilent),
            closeReason := some .fault }) ∧
        (∀ b, b ≠ a → KeepsArm b s t) ∧ t.stop = s.stop ∧ t.rep.records = s.rep.records) ∧
    (∀ lim a b, (s.meterRun i).timer = some lim → slotArm s i = some a → s.phase a = .closing →
      (s.ctxOf a).closeReason ≠ none → (s.ctxOf a).batch = some b → valveCondition s a = true →
      (∀ st, Waits s a st → Settled s a st ∨ meterSlot s a st = some i) →
      ∃ t, exec (.meterSilenceExpiry i) s = .next t ∧ ClosedBy s t a (s.ctxOf a) b .fault ∧
        (t.ctxOf a).faultCode = (if (s.ctxOf a).closeReason = some .fault then (s.ctxOf a).faultCode
          else some ((s.ctxOf a).faultCode.getD .meterSilent)) ∧
        (∀ x, x ≠ a → KeepsArm x s t))

/-- R106, R107, R111, VALVE_REPORT: the held report becomes the report; a report that carries the sequence of
the departed order acknowledges it, and a latched demand that differs is placed at once; an ethanol channel
left IDLE with nothing latched answers a watched yield. A flagged report closes a flowing arm. R81, R83: a closed
report that makes the valve condition hold completes the close of an arm in CLOSING whose waited meters are
settled or silent. -/
def Obligations.ValveReportsAcknowledgeOrders : Prop :=
  ∀ (s : State) (r : ValveRpt), NextValveReport s r →
    let c := s.chan r.arm r.stream
    let held : HeldReport :=
      { ackSeq := r.ackSeq, flow := r.flow, closed := r.closed, fault := r.fault }
    let faults := r.fault = true ∧ isFlowing (s.phase r.arm) = true
    let acks (o : ValveFlight) : Prop := c.inFlight = some o ∧ o.departed = true ∧ o.seq = r.ackSeq
    let others (t : State) : Prop := ∀ b st, ¬ (b = r.arm ∧ st = r.stream) → t.chan b st = s.chan b st
    (¬ faults → (∀ o, ¬ acks o) → ∃ t, exec (.valveReport r) s = .next t ∧
      t.chan r.arm r.stream = { c with held := some held } ∧ others t) ∧
    (∀ o, ¬ faults → acks o → c.latched = none ∨ c.latched = some o.demand →
      ∃ t, exec (.valveReport r) s = .next t ∧
        t.chan r.arm r.stream =
          { c with held := some held, inFlight := none, expiryCount := 0, latched := none } ∧
        others t ∧
        (r.stream = .ethanol → sel s.reg.watch r.arm = true →
          sel t.reg.watch r.arm = false ∧ r.arm ∈ t.header.yieldAnswers)) ∧
    (∀ o d addr e, ¬ faults → acks o → c.latched = some d → d ≠ o.demand →
      station s r.arm r.stream = some (addr, e) → (s.portD e.port).normal.length < 16 →
      ∃ t, exec (.valveReport r) s = .next t ∧
        t.chan r.arm r.stream =
          { inFlight := some { seq := c.nextSeq, demand := d, departed := false, timer := none },
            latched := none, pendingSlot := none, lastSent := some d, expiryCount := 0,
            nextSeq := c.nextSeq + 1, held := some held } ∧
        others t ∧ (t.portD e.port).normal = (s.portD e.port).normal ++
          [{ frame := mkFrame addr s.mgmt.ownAddr 0x20 c.nextSeq (be 2 d),
             owner := .valveOrder r.arm r.stream }]) ∧
    (faults → r.closed = false → r.stream = .gasoline ∨ (s.ctxOf r.arm).recipe.ratio ≠ 0 →
      ∃ t, exec (.valveReport r) s = .next t ∧
        t.ctxOf r.arm = closedByFault (s.ctxOf r.arm) .valveStationFault ∧
        (t.chan r.arm r.stream).held = some held ∧ (∀ b, b ≠ r.arm → KeepsArm b s t)) ∧
    (∀ why b, s.phase r.arm = .closing → (s.ctxOf r.arm).closeReason = some why →
      (s.ctxOf r.arm).batch = some b → r.closed = true →
      (∀ st, Waits s r.arm st → (st = r.stream ∨ heldClosed (s.chan r.arm st) = true) ∧
        Settled s r.arm st) →
      ∃ t, exec (.valveReport r) s = .next t ∧ ClosedBy s t r.arm (s.ctxOf r.arm) b why ∧
        (∀ x, x ≠ r.arm → KeepsArm x s t))

/-- R149, LANE_STOP_VALVE_REPORT: a closed report ends the tracking of its station and clears its not-closed
mark, with TRIP judged afresh; a report without the closed flag changes nothing. R150, RETRY_TIMER_EXPIRY: an
expiry at a retry count below 3 sends each member a STOP ORDER and starts the timer again; at 3 each member is
declared not closed, and a PAUSED arm of a member goes to HALTED. The operand is a position in the list
(log 23), and a stopped timer does not expire (log 3). -/
def Obligations.TrackedStationsAnswerOrAreDeclared : Prop :=
  (∀ (s : State) (r : ValveRpt), NextStopReport s r →
    (r.closed = false → exec (.laneStopValveReport r) s = .next { s with
      stop := { s.stop with reports := dropItem r s.stop.reports } }) ∧
    (r.closed = true → ∃ t, exec (.laneStopValveReport r) s = .next t ∧
      (∀ n, isTracked t n = (isTracked s n && decide (n ≠ r.station))) ∧
      (∀ n, isMarked t n = (isMarked s n && decide (n ≠ r.station))) ∧
      (isMarked s r.station = true → t.stop.trip = tripLine t.stop.marks) ∧
      (isMarked s r.station = false → t.stop.trip = s.stop.trip) ∧
      t.arms = s.arms ∧ t.reg = s.reg ∧ t.header = s.header ∧ t.inj = s.inj ∧ t.meter = s.meter ∧
      t.d0 = s.d0 ∧ t.d1 = s.d1)) ∧
  (∀ (s : State) (i : Nat),
    (s.stop.tracking[i]? = none → exec (.retryTimerExpiry i) s = .next s) ∧
    (∀ x, s.stop.tracking[i]? = some x → x.timer = none →
      exec (.retryTimerExpiry i) s = .next s) ∧
    (∀ x lim, s.stop.tracking[i]? = some x → x.timer = some lim → x.retry < 3 →
      ∃ t, exec (.retryTimerExpiry i) s = .next t ∧
        t.stop.tracking = s.stop.tracking.set i { x with
          retry := x.retry + 1, timer := some s.mgmt.settings.retryInterval } ∧
        (∀ n ∈ x.members, ∃ q, .order q n ∈ (t.portD (nodeAt s n).port).urgent) ∧
        t.stop.marks = s.stop.marks ∧ t.arms = s.arms ∧ t.rep = s.rep ∧ t.reg = s.reg ∧
        t.header = s.header ∧ t.inj = s.inj ∧ t.meter = s.meter) ∧
    (∀ x lim, s.stop.tracking[i]? = some x → x.timer = some lim → 3 ≤ x.retry →
      ∃ t, exec (.retryTimerExpiry i) s = .next t ∧
        (∀ n ∈ x.members, isTracked t n = false ∧
          (1 ≤ n.toNat ∧ n.toNat ≤ 0xDF → isMarked t n = true ∧ t.stop.trip = true) ∧
          (s.phase (nodeAt s n).arm = .paused → t.phase (nodeAt s n).arm = .halted)) ∧
        (∀ b, (∀ n ∈ x.members, (nodeAt s n).arm ≠ b) → KeepsArm b s t)))

/-- R137, R135, STROKE_REPORT: a confirmed report for the departed stroke in flight counts it by its charge,
puts the miss count to 0, and the channel serves its next owed stroke, chosen by its policy; pace hold is judged
when the owed count has changed, and stays otherwise (R141). R138, R139,
STROKE_REPORT with result unconfirmed and STROKE_TIMER_EXPIRY: a miss leaves the owed counts and the channel
serves on; it is counted at or above the check flow, and the fourth counted miss isolates the channel: its owed
strokes are dropped, INJECTOR_NO_FLOW is raised, and ADDITIVE_LOST on each arm with a mandatory line on it (R140).
That the next stroke takes its flow at order and its slot before pace hold is judged (R141) is the model's choice
(log 6). Any other report is ignored, and a stopped timer does not expire (log 3). -/
def Obligations.StrokesAreConfirmedOrMissed : Prop :=
  (∀ (s : State) (c : Channel) (k : StrokeFlight), (s.injRun c).inFlight = some k →
    k.timer ≠ none → ∃ t, exec (.strokeTimerExpiry c) s = .next t ∧ Missed s c k t) ∧
  (∀ (s : State) (c : Channel), (∀ k, (s.injRun c).inFlight = some k → k.timer = none) →
    exec (.strokeTimerExpiry c) s = .next s) ∧
  (∀ (s : State) (r : StrokeRpt), NextStrokeReport s r →
    let c := r.channel
    let x := s.injRun c
    let u : State := { s with inj := { s.inj with reports := dropItem r s.inj.reports } }
    let answers (k : StrokeFlight) (e : NodeEntry) : Prop :=
      headBinding s c = some (r.source, e) ∧ x.state = .stroking ∧ x.inFlight = some k ∧
        k.departed = true ∧ k.seq = r.seq
    ((∀ k e, ¬ answers k e) → exec (.strokeReport r) s = .next u) ∧
    (∀ k e, answers k e → r.confirmed = false →
      ∃ t, exec (.strokeReport r) s = .next t ∧ Missed s c k t) ∧
    (∀ k e, answers k e → r.confirmed = true → ∃ t, exec (.strokeReport r) s = .next t ∧
      (t.injRun c).missCount = 0 ∧
      (t.injRun c).owed k.outlet = (if k.charge = .owed then x.owed k.outlet - 1 else x.owed k.outlet) ∧
      (t.injRun c).owed (!k.outlet) = x.owed (!k.outlet) ∧
      ServesOn s c { x with
        missCount := 0, owed0 := (t.injRun c).owed0, owed1 := (t.injRun c).owed1 } t ∧
      (∀ a, (s.injRec c).outletArm k.outlet = some a →
        if k.charge = .owed ∧ 0 < x.owed k.outlet then PaceFollows s t a
        else (t.ctxOf a).paceHold = (s.ctxOf a).paceHold) ∧
      (∀ a, (s.injRec c).outletArm k.outlet = some a → (t.ctxOf a).lines =
        (s.ctxOf a).lines.map (fun l =>
          if l.channel = c then
            match k.charge with
            | .owed => { l with delivered := l.delivered + 1 }
            | .dropped => { l with delivered := l.delivered + 1, dropped := l.dropped - 1 }
            | .uncounted => l
          else l)) ∧
      (∀ b, (s.injRec c).outletArm k.outlet ≠ some b → KeepsArm b s t))) ∧
  (∀ (x : InjRun) (o : Bool),
    (chooseOutlet .fixed x = some o ↔ (o = false ∧ 0 < x.owed0) ∨ (o = true ∧ x.owed0 = 0 ∧ 0 < x.owed1)) ∧
    (chooseOutlet .alternate x = some o ↔ 0 < x.owed o ∧ (o = !x.lastServed ∨ x.owed (!x.lastServed) = 0)))

/-- R87, R88, PERMIT_REPORT and PERMIT_SILENCE_EXPIRY: a report replaces all eight bits and starts the timer
again, an expiry makes every bit false; each arm that needs its permit and whose bit falls while it flows or
waits takes PERMIT_LOST. The premise on the valves keeps a close from completing at once (R81). A stopped timer does not expire (log 3). -/
def Obligations.PermitBitsFollowTheReports : Prop :=
  ∀ s : State,
    let falls (bits : Byte) (a : Arm) : Prop := s.arms.permits.getLsbD a.val = true ∧
      bits.getLsbD a.val = false ∧ (s.armRec a).permitRequired = true ∧ isRunning (s.phase a) = true
    let takes (bits : Byte) (timer : Timer) (t : State) : Prop :=
      t.arms.permits = bits ∧ t.arms.permitTimer = timer ∧
      (∀ a, falls bits a → t.ctxOf a = closedByFault (s.ctxOf a) .permitLost) ∧
      (∀ a, ¬ falls bits a → KeepsArm a s t) ∧ t.stop = s.stop ∧ t.rep.records = s.rep.records
    (∀ bits, s.arms.permitReports.head? = some bits →
      (∀ a, falls bits a → valveCondition s a = false) →
      ∃ t, exec (.permitReport bits) s = .next t ∧
        takes bits (some s.mgmt.settings.permitLimit) t ∧
        t.arms.permitReports = s.arms.permitReports.drop 1) ∧
    (∀ lim, s.arms.permitTimer = some lim → (∀ a, falls 0 a → valveCondition s a = false) →
      ∃ t, exec .permitSilenceExpiry s = .next t ∧ takes 0 none t) ∧
    (s.arms.permitTimer = none → exec .permitSilenceExpiry s = .next s)

/-- R108, VALVE_RESPONSE_EXPIRY at expiry count 0: the channel sends again, with a new sequence, its latched
demand or else the unanswered one, or waits for a slot. R109, R110 at expiry count 1: the channel gives up and
keeps the unanswered demand as its last; an arm in CLOSING gets a lane stop, a PAUSED arm goes to HALTED, a
flowing or waiting arm closes for VALVE_NO_RESPONSE, any other keeps its context. A stopped timer does not
expire (log 3). -/
def Obligations.UnansweredOrdersAreSentTwice : Prop :=
  ∀ (s : State) (a : Arm) (st : Stream),
    let c := s.chan a st
    ((∀ o, c.inFlight = some o → o.timer = none) → exec (.valveResponseExpiry a st) s = .next s) ∧
    (∀ o addr e, c.inFlight = some o → o.timer ≠ none → c.expiryCount = 0 →
      station s a st = some (addr, e) →
      let d := c.latched.getD o.demand
      ((s.portD e.port).normal.length < 16 → ∃ t, exec (.valveResponseExpiry a st) s = .next t ∧
        t.chan a st =
          { inFlight := some { seq := c.nextSeq, demand := d, departed := false, timer := none },
            latched := none, pendingSlot := none, lastSent := some d, expiryCount := 1,
            nextSeq := c.nextSeq + 1, held := c.held } ∧
        (t.portD e.port).normal = (s.portD e.port).normal ++
          [{ frame := mkFrame addr s.mgmt.ownAddr 0x20 c.nextSeq (be 2 d),
             owner := .valveOrder a st }] ∧
        t.arms = s.arms ∧ t.rep = s.rep ∧ t.stop = s.stop ∧ t.header = s.header) ∧
      (16 ≤ (s.portD e.port).normal.length → exec (.valveResponseExpiry a st) s =
        .next (s.setChan a st { c with
          inFlight := none, latched := some d, pendingSlot := some e.port, lastSent := none,
          expiryCount := 1 }))) ∧
    (∀ o, c.inFlight = some o → o.timer ≠ none → c.expiryCount = 1 →
      ∃ t, exec (.valveResponseExpiry a st) s = .next t ∧
        (isRunning (s.phase a) = false → t.chan a st = { c with
          inFlight := none, latched := none, pendingSlot := none, expiryCount := 0,
          lastSent := some o.demand }) ∧
        (s.phase a = .closing → t.ctxOf a = s.ctxOf a ∧ t.stop = (laneStop (1#8 <<< a.val) s).stop) ∧
        (s.phase a = .paused → t.ctxOf a = { s.ctxOf a with
          state := .halted,
          faultCode := some ((s.ctxOf a).faultCode.getD .valveNoResponse) }) ∧
        (isRunning (s.phase a) = true → valveCondition s a = false →
          t.ctxOf a = closedByFault (s.ctxOf a) .valveNoResponse) ∧
        (s.phase a = .idle ∨ s.phase a = .ready ∨ s.phase a = .done ∨ s.phase a = .halted →
          t.ctxOf a = s.ctxOf a) ∧
        (s.phase a ≠ .closing → t.stop = s.stop) ∧ (∀ b, b ≠ a → KeepsArm b s t))

/-- R119, R120, R121, SERVING_PASS: a pass is made when one was called for and the spacing timer does not run.
R122, SPACING_TIMER_EXPIRY: the timer stops and a pass is made, whether or not one was called for. Either pass,
with a pending capacity, grants nothing. With start spacing above 0 it grants the head at most: the smaller
of the free shares and S_req, with the next grant order, and the arm enters STARTING. A head whose S_min
exceeds the effective capacity is not served and nothing is asked for it. With an empty queue the flowing arms
are topped up while free shares remain. With start spacing 0 a pass goes on: two arms at the head that it can
serve are both granted, in order; the premises there are the laws of the wait queue and of the grants, whose
invariant is EveryStepKeepsTheQueueAndGrants. That the pass that was called for is a mark and calls before it
are one (log 13), that the ends of alert conditions are judged with it (log 12), and that a stopped timer does not
expire (log 3) are the model's. -/
def Obligations.ServingPassesGrantFromTheHead : Prop :=
  ∀ s : State,
    let ready := s.header.passCalled = true ∧ s.header.spacing = none
    let free := s.header.effective - grantedSum s
    let made := settleAlerts { s with header := { s.header with passCalled := false, spacing := none } }
    (¬ ready → exec .servingPass s = .next s) ∧
    (s.header.spacing = none → exec .spacingTimerExpiry s = .next s) ∧
    (∀ lim, s.header.spacing = some lim → ∃ t, exec .spacingTimerExpiry s = .next t ∧
      exec .servingPass { s with header := { s.header with spacing := none, passCalled := true } } =
        .next t) ∧
    (∀ c, c = .servingPass ∧ ready ∨ c = .spacingTimerExpiry ∧ s.header.spacing ≠ none →
      (∀ v, s.header.pendingCap = some v → exec c s = .next made) ∧
      (∀ h rest, s.header.pendingCap = none → s.header.queue = h :: rest →
        s.header.effective < (s.grantOf h).sMin → exec c s = .next made) ∧
      (∀ h rest, s.header.pendingCap = none → s.header.queue = h :: rest →
        (s.grantOf h).sMin ≤ free → 0 < s.header.record.spacing →
        (s.ctxOf h).recipe.closeAhead < (s.ctxOf h).remaining →
        (s.ctxOf h).total - (s.ctxOf h).phaseBase < (s.ctxOf h).recipe.startVolume →
        mandatoryIsolated s h = false →
        ∃ t, exec c s = .next t ∧ t.phase h = .starting ∧
          t.grantOf h = { s.grantOf h with
            granted := min free (s.grantOf h).sReq,
            order := some (min (s.header.grantCounter + 1) 4294967295) } ∧
          t.header.queue = s.header.queue.filter (fun b => decide (b ≠ h)) ∧
          (sel t.header.waitTimers h).timer = none ∧
          t.header.spacing = some s.header.record.spacing ∧ (∀ b, b ≠ h → KeepsArm b s t)) ∧
      (∀ h k rest, s.header.pendingCap = none → s.header.queue = h :: k :: rest → QueueOk s → GrantsOk s →
        s.header.record.spacing = 0 →
        (∀ a, a = h ∨ a = k → (s.ctxOf a).recipe.closeAhead < (s.ctxOf a).remaining ∧
          (s.ctxOf a).total - (s.ctxOf a).phaseBase < (s.ctxOf a).recipe.startVolume ∧
          mandatoryIsolated s a = false) →
        let first := min free (s.grantOf h).sReq
        (s.grantOf h).sMin ≤ free → (s.grantOf k).sMin ≤ free - first →
        ∃ t, exec c s = .next t ∧ t.phase h = .starting ∧ t.phase k = .starting ∧
          (t.grantOf h).granted = first ∧
          (t.grantOf k).granted = min (free - first) (s.grantOf k).sReq ∧
          (t.grantOf h).order = some (min (s.header.grantCounter + 1) 4294967295) ∧
          (t.grantOf k).order = some (min (s.header.grantCounter + 2) 4294967295) ∧
          h ∉ t.header.queue ∧ k ∉ t.header.queue ∧ t.header.spacing = none) ∧
      (s.header.pendingCap = none → s.header.queue = [] →
        ∃ t, exec c s = .next t ∧ t.header.passCalled = false ∧
          (∀ a, (s.grantOf a).granted ≤ (t.grantOf a).granted ∧
            (t.grantOf a).sReq = (s.grantOf a).sReq ∧ (t.grantOf a).order = (s.grantOf a).order ∧
            t.phase a = s.phase a) ∧
          (freeShares t = 0 ∨ ∀ a, isFlowing (t.phase a) = true → (t.grantOf a).yieldPending = false →
            (t.grantOf a).sReq ≤ (t.grantOf a).granted)))

/-- R123, R120: a pass whose head needs more than the free shares, but no more than the effective capacity,
grants nothing and asks yields: of the flowing arms with policy YIELD, above their S_min and with no yield
pending, those with the largest excess first, the lower arm number first among equals, until the free shares
and the expected releases reach the head's S_min or no candidate is left. R124, R111: an arm asked has a yield
pending, flows by the share cap S_min, and is answered at once or watched. No other arm is touched. That a
pass is made of a mark is log 13. -/
def Obligations.YieldsAreAskedForTheHead : Prop :=
  ∀ (s : State) (h : Arm) (rest : List Arm),
    let excess (a : Arm) : Nat := (s.grantOf a).granted - (s.grantOf a).sMin
    let candidate (a : Arm) : Prop := isFlowing (s.phase a) = true ∧ (s.armRec a).policy = .yield ∧
      (s.grantOf a).sMin < (s.grantOf a).granted ∧ (s.grantOf a).yieldPending = false
    let free := s.header.effective - grantedSum s
    let coming := ((allArms.filter (fun a => (s.grantOf a).yieldPending)).map excess).sum
    let need := (s.grantOf h).sMin
    let before (a b : Arm) : Prop := excess b < excess a ∨ excess b = excess a ∧ a < b
    (∀ a, isCandidate s a = true ↔ candidate a) ∧
    (s.header.passCalled = true → s.header.spacing = none → s.header.pendingCap = none →
      s.header.queue = h :: rest → free < need → need ≤ s.header.effective →
      ∃ t asked left, exec .servingPass s = .next t ∧
        ((∀ a, a ∈ asked ++ left ↔ candidate a) ∧ (asked ++ left).Pairwise before) ∧
        ((∀ n, n < asked.length → free + coming + ((asked.take n).map excess).sum < need) ∧
          (left = [] ∨ need ≤ free + coming + (asked.map excess).sum)) ∧
        (∀ a, t.grantOf a = { s.grantOf a with
          yieldPending := (s.grantOf a).yieldPending || decide (a ∈ asked) }) ∧
        (∀ a, a ∈ asked → t.phase a = s.phase a ∧ FlowFollows t a (t.ctxOf a) ∧ DemandsTold t a ∧
          (a ∈ t.header.yieldAnswers ∨ sel t.reg.watch a = true)) ∧
        (∀ a, a ∉ asked → KeepsArm a s t) ∧ t.header.queue = s.header.queue ∧
        t.header.effective = s.header.effective ∧ t.header.spacing = none ∧
        t.header.passCalled = false ∧ t.header.grantCounter = s.header.grantCounter)

/-- R128, WAIT_TIMER_EXPIRY: an arm still in WAITING has its raised mark set and HEADER_WAIT raised, and keeps
its place. R124, YIELD_ANSWER: an answered yield releases the surplus over S_min and calls for a pass; an
answer that finds no yield pending releases nothing, and with no answer given nothing happens (log 18). A stopped timer does not expire (log 3). -/
def Obligations.WaitsAndYieldsEnd : Prop :=
  ∀ (s : State) (a : Arm),
    ((sel s.header.waitTimers a).timer = none → exec (.waitTimerExpiry a) s = .next s) ∧
    (∀ lim, (sel s.header.waitTimers a).timer = some lim → s.phase a = .waiting →
      ∃ t, exec (.waitTimerExpiry a) s = .next t ∧
        sel t.header.waitTimers a = { timer := none, raised := true } ∧ t.arms = s.arms ∧
        t.header.queue = s.header.queue ∧ t.header.grants = s.header.grants ∧
        (s.rep.alerts.length < 32 → ∃ x ∈ t.rep.alerts,
          x.kind = .headerWait ∧ x.subject = .arm a ∧ x.present = true ∧ x.acknowledged = false)) ∧
    (a ∉ s.header.yieldAnswers → exec (.yieldAnswer a) s = .next s) ∧
    (a ∈ s.header.yieldAnswers → (s.grantOf a).yieldPending = false →
      exec (.yieldAnswer a) s = .next { s with header := { s.header with
        yieldAnswers := dropItem a s.header.yieldAnswers } }) ∧
    (a ∈ s.header.yieldAnswers → (s.grantOf a).yieldPending = true →
      ∃ t, exec (.yieldAnswer a) s = .next t ∧ (t.grantOf a).granted = (s.grantOf a).sMin ∧
        (t.grantOf a).yieldPending = false ∧ (t.grantOf a).sMin = (s.grantOf a).sMin ∧
        (∀ b, b ≠ a → (t.grantOf b).granted = (s.grantOf b).granted) ∧
        (s.header.spacing = none → t.header.passCalled = true) ∧
        t.header.yieldAnswers = dropItem a s.header.yieldAnswers ∧
        (∀ v, s.header.pendingCap = some v → grantedSum t ≤ v →
          t.header.effective = v ∧ t.header.pendingCap = none) ∧
        (s.header.pendingCap = none → t.header.effective = s.header.effective) ∧
        t.arms = s.arms ∧ t.reg = s.reg ∧ t.d0 = s.d0 ∧ t.d1 = s.d1 ∧ t.rep = s.rep)

/-- The frame of the commands that reports and expiries bring and of the Allocator's own events: Port U, the
tables, the settings, the mode and the seconds stay, and of a D port all but the orders and stop frames that
join the tails of its queues; of the frames that wait only the arm set of a STOP BROADCAST may grow (R10). -/
def Obligations.EventsLeaveThePortsAndTables : Prop :=
  ∀ (c : Instr) (s t : State), isEvent c = true → exec c s = .next t →
    t.portU = s.portU ∧ t.free = s.free ∧ t.pending = s.pending ∧ KeepsConfiguration s t ∧
      (∀ p, (t.portD p).framer = (s.portD p).framer ∧ (t.portD p).reports = (s.portD p).reports ∧
        (t.portD p).sending = (s.portD p).sending ∧ (t.portD p).counters = (s.portD p).counters ∧
        KeepsUrgent (s.portD p) (t.portD p) ∧
        ∃ more, (t.portD p).normal = (s.portD p).normal ++ more)
end

