-- ==== Sys2Proof/Laws/State.lean ====
section
/-! SUPPORT. Reads after writes: what each update of State leaves and what it changes. -/

namespace Sys2Proof

/-! ## Tables -/

@[simp] theorem sel_put_same {α : Type} {n : Nat} (v : Vector α n) (i : Fin n) (x : α) :
    sel (put v i x) i = x := by simp [sel, put]

@[simp] theorem sel_put_ne {α : Type} {n : Nat} (v : Vector α n) (i j : Fin n) (x : α)
    (h : i ≠ j) : sel (put v i x) j = sel v j := by
  have : i.val ≠ j.val := fun e => h (Fin.ext e)
  simp [sel, put, Vector.getElem_set_ne, this]

theorem sel_put {α : Type} {n : Nat} (v : Vector α n) (i j : Fin n) (x : α) :
    sel (put v i x) j = if i = j then x else sel v j := by
  by_cases h : i = j
  · subst h; simp
  · simp [h]

@[simp] theorem sel_replicate {α : Type} {n : Nat} (i : Fin n) (x : α) :
    sel (Vector.replicate n x) i = x := by simp [sel]

@[simp] theorem sel_mapVec {α : Type} {n : Nat} (f : α → α) (v : Vector α n) (i : Fin n) :
    sel (Machine.mapVec f v) i = f (sel v i) := by simp [sel, Machine.mapVec]

namespace Machine

/-! ## Components an update leaves -/

@[simp] theorem setCtx_mgmt (s : State) (a : Arm) (c : ArmCtx) : (s.setCtx a c).mgmt = s.mgmt := rfl
@[simp] theorem setCtx_portU (s : State) (a : Arm) (c : ArmCtx) : (s.setCtx a c).portU = s.portU := rfl
@[simp] theorem setCtx_d0 (s : State) (a : Arm) (c : ArmCtx) : (s.setCtx a c).d0 = s.d0 := rfl
@[simp] theorem setCtx_d1 (s : State) (a : Arm) (c : ArmCtx) : (s.setCtx a c).d1 = s.d1 := rfl
@[simp] theorem setCtx_relay (s : State) (a : Arm) (c : ArmCtx) : (s.setCtx a c).relay = s.relay := rfl
@[simp] theorem setCtx_meter (s : State) (a : Arm) (c : ArmCtx) : (s.setCtx a c).meter = s.meter := rfl
@[simp] theorem setCtx_reg (s : State) (a : Arm) (c : ArmCtx) : (s.setCtx a c).reg = s.reg := rfl
@[simp] theorem setCtx_header (s : State) (a : Arm) (c : ArmCtx) : (s.setCtx a c).header = s.header := rfl
@[simp] theorem setCtx_inj (s : State) (a : Arm) (c : ArmCtx) : (s.setCtx a c).inj = s.inj := rfl
@[simp] theorem setCtx_stop (s : State) (a : Arm) (c : ArmCtx) : (s.setCtx a c).stop = s.stop := rfl
@[simp] theorem setCtx_rep (s : State) (a : Arm) (c : ArmCtx) : (s.setCtx a c).rep = s.rep := rfl
@[simp] theorem setCtx_pending (s : State) (a : Arm) (c : ArmCtx) : (s.setCtx a c).pending = s.pending := rfl
@[simp] theorem setCtx_free (s : State) (a : Arm) (c : ArmCtx) : (s.setCtx a c).free = s.free := rfl

@[simp] theorem modCtx_mgmt (s : State) (a : Arm) (f : ArmCtx → ArmCtx) : (s.modCtx a f).mgmt = s.mgmt := rfl
@[simp] theorem modCtx_portU (s : State) (a : Arm) (f : ArmCtx → ArmCtx) : (s.modCtx a f).portU = s.portU := rfl
@[simp] theorem modCtx_d0 (s : State) (a : Arm) (f : ArmCtx → ArmCtx) : (s.modCtx a f).d0 = s.d0 := rfl
@[simp] theorem modCtx_d1 (s : State) (a : Arm) (f : ArmCtx → ArmCtx) : (s.modCtx a f).d1 = s.d1 := rfl
@[simp] theorem modCtx_relay (s : State) (a : Arm) (f : ArmCtx → ArmCtx) : (s.modCtx a f).relay = s.relay := rfl
@[simp] theorem modCtx_meter (s : State) (a : Arm) (f : ArmCtx → ArmCtx) : (s.modCtx a f).meter = s.meter := rfl
@[simp] theorem modCtx_reg (s : State) (a : Arm) (f : ArmCtx → ArmCtx) : (s.modCtx a f).reg = s.reg := rfl
@[simp] theorem modCtx_header (s : State) (a : Arm) (f : ArmCtx → ArmCtx) : (s.modCtx a f).header = s.header := rfl
@[simp] theorem modCtx_inj (s : State) (a : Arm) (f : ArmCtx → ArmCtx) : (s.modCtx a f).inj = s.inj := rfl
@[simp] theorem modCtx_stop (s : State) (a : Arm) (f : ArmCtx → ArmCtx) : (s.modCtx a f).stop = s.stop := rfl
@[simp] theorem modCtx_rep (s : State) (a : Arm) (f : ArmCtx → ArmCtx) : (s.modCtx a f).rep = s.rep := rfl
@[simp] theorem modCtx_pending (s : State) (a : Arm) (f : ArmCtx → ArmCtx) : (s.modCtx a f).pending = s.pending := rfl
@[simp] theorem modCtx_free (s : State) (a : Arm) (f : ArmCtx → ArmCtx) : (s.modCtx a f).free = s.free := rfl

@[simp] theorem setClose_mgmt (s : State) (a : Arm) (c : CloseRun) : (s.setClose a c).mgmt = s.mgmt := rfl
@[simp] theorem setClose_portU (s : State) (a : Arm) (c : CloseRun) : (s.setClose a c).portU = s.portU := rfl
@[simp] theorem setClose_d0 (s : State) (a : Arm) (c : CloseRun) : (s.setClose a c).d0 = s.d0 := rfl
@[simp] theorem setClose_d1 (s : State) (a : Arm) (c : CloseRun) : (s.setClose a c).d1 = s.d1 := rfl
@[simp] theorem setClose_relay (s : State) (a : Arm) (c : CloseRun) : (s.setClose a c).relay = s.relay := rfl
@[simp] theorem setClose_meter (s : State) (a : Arm) (c : CloseRun) : (s.setClose a c).meter = s.meter := rfl
@[simp] theorem setClose_reg (s : State) (a : Arm) (c : CloseRun) : (s.setClose a c).reg = s.reg := rfl
@[simp] theorem setClose_header (s : State) (a : Arm) (c : CloseRun) : (s.setClose a c).header = s.header := rfl
@[simp] theorem setClose_inj (s : State) (a : Arm) (c : CloseRun) : (s.setClose a c).inj = s.inj := rfl
@[simp] theorem setClose_stop (s : State) (a : Arm) (c : CloseRun) : (s.setClose a c).stop = s.stop := rfl
@[simp] theorem setClose_rep (s : State) (a : Arm) (c : CloseRun) : (s.setClose a c).rep = s.rep := rfl
@[simp] theorem setClose_pending (s : State) (a : Arm) (c : CloseRun) : (s.setClose a c).pending = s.pending := rfl
@[simp] theorem setClose_free (s : State) (a : Arm) (c : CloseRun) : (s.setClose a c).free = s.free := rfl

@[simp] theorem setMeterRun_mgmt (s : State) (i : Slot) (r : MeterRun) : (s.setMeterRun i r).mgmt = s.mgmt := rfl
@[simp] theorem setMeterRun_portU (s : State) (i : Slot) (r : MeterRun) : (s.setMeterRun i r).portU = s.portU := rfl
@[simp] theorem setMeterRun_d0 (s : State) (i : Slot) (r : MeterRun) : (s.setMeterRun i r).d0 = s.d0 := rfl
@[simp] theorem setMeterRun_d1 (s : State) (i : Slot) (r : MeterRun) : (s.setMeterRun i r).d1 = s.d1 := rfl
@[simp] theorem setMeterRun_relay (s : State) (i : Slot) (r : MeterRun) : (s.setMeterRun i r).relay = s.relay := rfl
@[simp] theorem setMeterRun_arms (s : State) (i : Slot) (r : MeterRun) : (s.setMeterRun i r).arms = s.arms := rfl
@[simp] theorem setMeterRun_reg (s : State) (i : Slot) (r : MeterRun) : (s.setMeterRun i r).reg = s.reg := rfl
@[simp] theorem setMeterRun_header (s : State) (i : Slot) (r : MeterRun) : (s.setMeterRun i r).header = s.header := rfl
@[simp] theorem setMeterRun_inj (s : State) (i : Slot) (r : MeterRun) : (s.setMeterRun i r).inj = s.inj := rfl
@[simp] theorem setMeterRun_stop (s : State) (i : Slot) (r : MeterRun) : (s.setMeterRun i r).stop = s.stop := rfl
@[simp] theorem setMeterRun_rep (s : State) (i : Slot) (r : MeterRun) : (s.setMeterRun i r).rep = s.rep := rfl
@[simp] theorem setMeterRun_pending (s : State) (i : Slot) (r : MeterRun) : (s.setMeterRun i r).pending = s.pending := rfl
@[simp] theorem setMeterRun_free (s : State) (i : Slot) (r : MeterRun) : (s.setMeterRun i r).free = s.free := rfl

@[simp] theorem setChan_mgmt (s : State) (a : Arm) (st : Stream) (c : ValveChan) : (s.setChan a st c).mgmt = s.mgmt := by cases st <;> rfl
@[simp] theorem setChan_portU (s : State) (a : Arm) (st : Stream) (c : ValveChan) : (s.setChan a st c).portU = s.portU := by cases st <;> rfl
@[simp] theorem setChan_d0 (s : State) (a : Arm) (st : Stream) (c : ValveChan) : (s.setChan a st c).d0 = s.d0 := by cases st <;> rfl
@[simp] theorem setChan_d1 (s : State) (a : Arm) (st : Stream) (c : ValveChan) : (s.setChan a st c).d1 = s.d1 := by cases st <;> rfl
@[simp] theorem setChan_relay (s : State) (a : Arm) (st : Stream) (c : ValveChan) : (s.setChan a st c).relay = s.relay := by cases st <;> rfl
@[simp] theorem setChan_meter (s : State) (a : Arm) (st : Stream) (c : ValveChan) : (s.setChan a st c).meter = s.meter := by cases st <;> rfl
@[simp] theorem setChan_arms (s : State) (a : Arm) (st : Stream) (c : ValveChan) : (s.setChan a st c).arms = s.arms := by cases st <;> rfl
@[simp] theorem setChan_header (s : State) (a : Arm) (st : Stream) (c : ValveChan) : (s.setChan a st c).header = s.header := by cases st <;> rfl
@[simp] theorem setChan_inj (s : State) (a : Arm) (st : Stream) (c : ValveChan) : (s.setChan a st c).inj = s.inj := by cases st <;> rfl
@[simp] theorem setChan_stop (s : State) (a : Arm) (st : Stream) (c : ValveChan) : (s.setChan a st c).stop = s.stop := by cases st <;> rfl
@[simp] theorem setChan_rep (s : State) (a : Arm) (st : Stream) (c : ValveChan) : (s.setChan a st c).rep = s.rep := by cases st <;> rfl
@[simp] theorem setChan_pending (s : State) (a : Arm) (st : Stream) (c : ValveChan) : (s.setChan a st c).pending = s.pending := by cases st <;> rfl
@[simp] theorem setChan_free (s : State) (a : Arm) (st : Stream) (c : ValveChan) : (s.setChan a st c).free = s.free := by cases st <;> rfl

@[simp] theorem setWatch_mgmt (s : State) (a : Arm) (b : Bool) : (s.setWatch a b).mgmt = s.mgmt := rfl
@[simp] theorem setWatch_portU (s : State) (a : Arm) (b : Bool) : (s.setWatch a b).portU = s.portU := rfl
@[simp] theorem setWatch_d0 (s : State) (a : Arm) (b : Bool) : (s.setWatch a b).d0 = s.d0 := rfl
@[simp] theorem setWatch_d1 (s : State) (a : Arm) (b : Bool) : (s.setWatch a b).d1 = s.d1 := rfl
@[simp] theorem setWatch_relay (s : State) (a : Arm) (b : Bool) : (s.setWatch a b).relay = s.relay := rfl
@[simp] theorem setWatch_meter (s : State) (a : Arm) (b : Bool) : (s.setWatch a b).meter = s.meter := rfl
@[simp] theorem setWatch_arms (s : State) (a : Arm) (b : Bool) : (s.setWatch a b).arms = s.arms := rfl
@[simp] theorem setWatch_header (s : State) (a : Arm) (b : Bool) : (s.setWatch a b).header = s.header := rfl
@[simp] theorem setWatch_inj (s : State) (a : Arm) (b : Bool) : (s.setWatch a b).inj = s.inj := rfl
@[simp] theorem setWatch_stop (s : State) (a : Arm) (b : Bool) : (s.setWatch a b).stop = s.stop := rfl
@[simp] theorem setWatch_rep (s : State) (a : Arm) (b : Bool) : (s.setWatch a b).rep = s.rep := rfl
@[simp] theorem setWatch_pending (s : State) (a : Arm) (b : Bool) : (s.setWatch a b).pending = s.pending := rfl
@[simp] theorem setWatch_free (s : State) (a : Arm) (b : Bool) : (s.setWatch a b).free = s.free := rfl

@[simp] theorem setGrant_mgmt (s : State) (a : Arm) (g : Grant) : (s.setGrant a g).mgmt = s.mgmt := rfl
@[simp] theorem setGrant_portU (s : State) (a : Arm) (g : Grant) : (s.setGrant a g).portU = s.portU := rfl
@[simp] theorem setGrant_d0 (s : State) (a : Arm) (g : Grant) : (s.setGrant a g).d0 = s.d0 := rfl
@[simp] theorem setGrant_d1 (s : State) (a : Arm) (g : Grant) : (s.setGrant a g).d1 = s.d1 := rfl
@[simp] theorem setGrant_relay (s : State) (a : Arm) (g : Grant) : (s.setGrant a g).relay = s.relay := rfl
@[simp] theorem setGrant_meter (s : State) (a : Arm) (g : Grant) : (s.setGrant a g).meter = s.meter := rfl
@[simp] theorem setGrant_arms (s : State) (a : Arm) (g : Grant) : (s.setGrant a g).arms = s.arms := rfl
@[simp] theorem setGrant_reg (s : State) (a : Arm) (g : Grant) : (s.setGrant a g).reg = s.reg := rfl
@[simp] theorem setGrant_inj (s : State) (a : Arm) (g : Grant) : (s.setGrant a g).inj = s.inj := rfl
@[simp] theorem setGrant_stop (s : State) (a : Arm) (g : Grant) : (s.setGrant a g).stop = s.stop := rfl
@[simp] theorem setGrant_rep (s : State) (a : Arm) (g : Grant) : (s.setGrant a g).rep = s.rep := rfl
@[simp] theorem setGrant_pending (s : State) (a : Arm) (g : Grant) : (s.setGrant a g).pending = s.pending := rfl
@[simp] theorem setGrant_free (s : State) (a : Arm) (g : Grant) : (s.setGrant a g).free = s.free := rfl

@[simp] theorem setWaitTimer_mgmt (s : State) (a : Arm) (t : WaitTimer) : (s.setWaitTimer a t).mgmt = s.mgmt := rfl
@[simp] theorem setWaitTimer_portU (s : State) (a : Arm) (t : WaitTimer) : (s.setWaitTimer a t).portU = s.portU := rfl
@[simp] theorem setWaitTimer_d0 (s : State) (a : Arm) (t : WaitTimer) : (s.setWaitTimer a t).d0 = s.d0 := rfl
@[simp] theorem setWaitTimer_d1 (s : State) (a : Arm) (t : WaitTimer) : (s.setWaitTimer a t).d1 = s.d1 := rfl
@[simp] theorem setWaitTimer_relay (s : State) (a : Arm) (t : WaitTimer) : (s.setWaitTimer a t).relay = s.relay := rfl
@[simp] theorem setWaitTimer_meter (s : State) (a : Arm) (t : WaitTimer) : (s.setWaitTimer a t).meter = s.meter := rfl
@[simp] theorem setWaitTimer_arms (s : State) (a : Arm) (t : WaitTimer) : (s.setWaitTimer a t).arms = s.arms := rfl
@[simp] theorem setWaitTimer_reg (s : State) (a : Arm) (t : WaitTimer) : (s.setWaitTimer a t).reg = s.reg := rfl
@[simp] theorem setWaitTimer_inj (s : State) (a : Arm) (t : WaitTimer) : (s.setWaitTimer a t).inj = s.inj := rfl
@[simp] theorem setWaitTimer_stop (s : State) (a : Arm) (t : WaitTimer) : (s.setWaitTimer a t).stop = s.stop := rfl
@[simp] theorem setWaitTimer_rep (s : State) (a : Arm) (t : WaitTimer) : (s.setWaitTimer a t).rep = s.rep := rfl
@[simp] theorem setWaitTimer_pending (s : State) (a : Arm) (t : WaitTimer) : (s.setWaitTimer a t).pending = s.pending := rfl
@[simp] theorem setWaitTimer_free (s : State) (a : Arm) (t : WaitTimer) : (s.setWaitTimer a t).free = s.free := rfl

@[simp] theorem setInjRun_mgmt (s : State) (c : Channel) (r : InjRun) : (s.setInjRun c r).mgmt = s.mgmt := rfl
@[simp] theorem setInjRun_portU (s : State) (c : Channel) (r : InjRun) : (s.setInjRun c r).portU = s.portU := rfl
@[simp] theorem setInjRun_d0 (s : State) (c : Channel) (r : InjRun) : (s.setInjRun c r).d0 = s.d0 := rfl
@[simp] theorem setInjRun_d1 (s : State) (c : Channel) (r : InjRun) : (s.setInjRun c r).d1 = s.d1 := rfl
@[simp] theorem setInjRun_relay (s : State) (c : Channel) (r : InjRun) : (s.setInjRun c r).relay = s.relay := rfl
@[simp] theorem setInjRun_meter (s : State) (c : Channel) (r : InjRun) : (s.setInjRun c r).meter = s.meter := rfl
@[simp] theorem setInjRun_arms (s : State) (c : Channel) (r : InjRun) : (s.setInjRun c r).arms = s.arms := rfl
@[simp] theorem setInjRun_reg (s : State) (c : Channel) (r : InjRun) : (s.setInjRun c r).reg = s.reg := rfl
@[simp] theorem setInjRun_header (s : State) (c : Channel) (r : InjRun) : (s.setInjRun c r).header = s.header := rfl
@[simp] theorem setInjRun_stop (s : State) (c : Channel) (r : InjRun) : (s.setInjRun c r).stop = s.stop := rfl
@[simp] theorem setInjRun_rep (s : State) (c : Channel) (r : InjRun) : (s.setInjRun c r).rep = s.rep := rfl
@[simp] theorem setInjRun_pending (s : State) (c : Channel) (r : InjRun) : (s.setInjRun c r).pending = s.pending := rfl
@[simp] theorem setInjRun_free (s : State) (c : Channel) (r : InjRun) : (s.setInjRun c r).free = s.free := rfl

@[simp] theorem setPortD_mgmt (s : State) (p : DPort) (x : PortD) : (s.setPortD p x).mgmt = s.mgmt := by cases p <;> rfl
@[simp] theorem setPortD_portU (s : State) (p : DPort) (x : PortD) : (s.setPortD p x).portU = s.portU := by cases p <;> rfl
@[simp] theorem setPortD_relay (s : State) (p : DPort) (x : PortD) : (s.setPortD p x).relay = s.relay := by cases p <;> rfl
@[simp] theorem setPortD_meter (s : State) (p : DPort) (x : PortD) : (s.setPortD p x).meter = s.meter := by cases p <;> rfl
@[simp] theorem setPortD_arms (s : State) (p : DPort) (x : PortD) : (s.setPortD p x).arms = s.arms := by cases p <;> rfl
@[simp] theorem setPortD_reg (s : State) (p : DPort) (x : PortD) : (s.setPortD p x).reg = s.reg := by cases p <;> rfl
@[simp] theorem setPortD_header (s : State) (p : DPort) (x : PortD) : (s.setPortD p x).header = s.header := by cases p <;> rfl
@[simp] theorem setPortD_inj (s : State) (p : DPort) (x : PortD) : (s.setPortD p x).inj = s.inj := by cases p <;> rfl
@[simp] theorem setPortD_stop (s : State) (p : DPort) (x : PortD) : (s.setPortD p x).stop = s.stop := by cases p <;> rfl
@[simp] theorem setPortD_rep (s : State) (p : DPort) (x : PortD) : (s.setPortD p x).rep = s.rep := by cases p <;> rfl
@[simp] theorem setPortD_pending (s : State) (p : DPort) (x : PortD) : (s.setPortD p x).pending = s.pending := by cases p <;> rfl
@[simp] theorem setPortD_free (s : State) (p : DPort) (x : PortD) : (s.setPortD p x).free = s.free := by cases p <;> rfl

@[simp] theorem setAlerts_mgmt (s : State) (xs : List Alert) : (setAlerts xs s).mgmt = s.mgmt := rfl
@[simp] theorem setAlerts_portU (s : State) (xs : List Alert) : (setAlerts xs s).portU = s.portU := rfl
@[simp] theorem setAlerts_d0 (s : State) (xs : List Alert) : (setAlerts xs s).d0 = s.d0 := rfl
@[simp] theorem setAlerts_d1 (s : State) (xs : List Alert) : (setAlerts xs s).d1 = s.d1 := rfl
@[simp] theorem setAlerts_relay (s : State) (xs : List Alert) : (setAlerts xs s).relay = s.relay := rfl
@[simp] theorem setAlerts_meter (s : State) (xs : List Alert) : (setAlerts xs s).meter = s.meter := rfl
@[simp] theorem setAlerts_arms (s : State) (xs : List Alert) : (setAlerts xs s).arms = s.arms := rfl
@[simp] theorem setAlerts_reg (s : State) (xs : List Alert) : (setAlerts xs s).reg = s.reg := rfl
@[simp] theorem setAlerts_header (s : State) (xs : List Alert) : (setAlerts xs s).header = s.header := rfl
@[simp] theorem setAlerts_inj (s : State) (xs : List Alert) : (setAlerts xs s).inj = s.inj := rfl
@[simp] theorem setAlerts_stop (s : State) (xs : List Alert) : (setAlerts xs s).stop = s.stop := rfl
@[simp] theorem setAlerts_pending (s : State) (xs : List Alert) : (setAlerts xs s).pending = s.pending := rfl
@[simp] theorem setAlerts_free (s : State) (xs : List Alert) : (setAlerts xs s).free = s.free := rfl

@[simp] theorem joinU_mgmt (s : State) (f : Frame) : (joinU f s).mgmt = s.mgmt := rfl
@[simp] theorem joinU_d0 (s : State) (f : Frame) : (joinU f s).d0 = s.d0 := rfl
@[simp] theorem joinU_d1 (s : State) (f : Frame) : (joinU f s).d1 = s.d1 := rfl
@[simp] theorem joinU_relay (s : State) (f : Frame) : (joinU f s).relay = s.relay := rfl
@[simp] theorem joinU_meter (s : State) (f : Frame) : (joinU f s).meter = s.meter := rfl
@[simp] theorem joinU_arms (s : State) (f : Frame) : (joinU f s).arms = s.arms := rfl
@[simp] theorem joinU_reg (s : State) (f : Frame) : (joinU f s).reg = s.reg := rfl
@[simp] theorem joinU_header (s : State) (f : Frame) : (joinU f s).header = s.header := rfl
@[simp] theorem joinU_inj (s : State) (f : Frame) : (joinU f s).inj = s.inj := rfl
@[simp] theorem joinU_stop (s : State) (f : Frame) : (joinU f s).stop = s.stop := rfl
@[simp] theorem joinU_rep (s : State) (f : Frame) : (joinU f s).rep = s.rep := rfl
@[simp] theorem joinU_pending (s : State) (f : Frame) : (joinU f s).pending = s.pending := rfl
@[simp] theorem joinU_free (s : State) (f : Frame) : (joinU f s).free = s.free := rfl

@[simp] theorem joinNormal_mgmt (s : State) (p : DPort) (f : NormalFrame) : (joinNormal p f s).mgmt = s.mgmt := by cases p <;> rfl
@[simp] theorem joinNormal_portU (s : State) (p : DPort) (f : NormalFrame) : (joinNormal p f s).portU = s.portU := by cases p <;> rfl
@[simp] theorem joinNormal_relay (s : State) (p : DPort) (f : NormalFrame) : (joinNormal p f s).relay = s.relay := by cases p <;> rfl
@[simp] theorem joinNormal_meter (s : State) (p : DPort) (f : NormalFrame) : (joinNormal p f s).meter = s.meter := by cases p <;> rfl
@[simp] theorem joinNormal_arms (s : State) (p : DPort) (f : NormalFrame) : (joinNormal p f s).arms = s.arms := by cases p <;> rfl
@[simp] theorem joinNormal_reg (s : State) (p : DPort) (f : NormalFrame) : (joinNormal p f s).reg = s.reg := by cases p <;> rfl
@[simp] theorem joinNormal_header (s : State) (p : DPort) (f : NormalFrame) : (joinNormal p f s).header = s.header := by cases p <;> rfl
@[simp] theorem joinNormal_inj (s : State) (p : DPort) (f : NormalFrame) : (joinNormal p f s).inj = s.inj := by cases p <;> rfl
@[simp] theorem joinNormal_stop (s : State) (p : DPort) (f : NormalFrame) : (joinNormal p f s).stop = s.stop := by cases p <;> rfl
@[simp] theorem joinNormal_rep (s : State) (p : DPort) (f : NormalFrame) : (joinNormal p f s).rep = s.rep := by cases p <;> rfl
@[simp] theorem joinNormal_pending (s : State) (p : DPort) (f : NormalFrame) : (joinNormal p f s).pending = s.pending := by cases p <;> rfl
@[simp] theorem joinNormal_free (s : State) (p : DPort) (f : NormalFrame) : (joinNormal p f s).free = s.free := by cases p <;> rfl

/-! ## Reads of what an update writes -/

@[simp] theorem ctxOf_setCtx_same (s : State) (a : Arm) (c : ArmCtx) : (s.setCtx a c).ctxOf a = c := by
  simp [State.ctxOf, State.setCtx]

@[simp] theorem ctxOf_setCtx_ne (s : State) (a b : Arm) (c : ArmCtx) (h : a ≠ b) :
    (s.setCtx a c).ctxOf b = s.ctxOf b := by
  simp [State.ctxOf, State.setCtx, h]

theorem ctxOf_setCtx (s : State) (a b : Arm) (c : ArmCtx) :
    (s.setCtx a c).ctxOf b = if a = b then c else s.ctxOf b := by
  simp [State.ctxOf, State.setCtx, sel_put]

@[simp] theorem ctxOf_modCtx_same (s : State) (a : Arm) (f : ArmCtx → ArmCtx) :
    (s.modCtx a f).ctxOf a = f (s.ctxOf a) := by
  simp [State.modCtx]

@[simp] theorem ctxOf_modCtx_ne (s : State) (a b : Arm) (f : ArmCtx → ArmCtx) (h : a ≠ b) :
    (s.modCtx a f).ctxOf b = s.ctxOf b := by
  simp [State.modCtx, h]

theorem ctxOf_modCtx (s : State) (a b : Arm) (f : ArmCtx → ArmCtx) :
    (s.modCtx a f).ctxOf b = if a = b then f (s.ctxOf a) else s.ctxOf b := by
  simp [State.modCtx, ctxOf_setCtx]

@[simp] theorem ctxOf_setClose (s : State) (a b : Arm) (c : CloseRun) :
    (s.setClose a c).ctxOf b = s.ctxOf b := rfl

@[simp] theorem closeOf_setClose_same (s : State) (a : Arm) (c : CloseRun) :
    (s.setClose a c).closeOf a = c := by
  simp [State.closeOf, State.setClose]

@[simp] theorem closeOf_setClose_ne (s : State) (a b : Arm) (c : CloseRun) (h : a ≠ b) :
    (s.setClose a c).closeOf b = s.closeOf b := by
  simp [State.closeOf, State.setClose, h]

@[simp] theorem meterRun_setMeterRun_same (s : State) (i : Slot) (r : MeterRun) :
    (s.setMeterRun i r).meterRun i = r := by
  simp [State.meterRun, State.setMeterRun]

@[simp] theorem meterRun_setMeterRun_ne (s : State) (i j : Slot) (r : MeterRun) (h : i ≠ j) :
    (s.setMeterRun i r).meterRun j = s.meterRun j := by
  simp [State.meterRun, State.setMeterRun, h]

@[simp] theorem meterRec_setMeterRun (s : State) (i j : Slot) (r : MeterRun) :
    (s.setMeterRun i r).meterRec j = s.meterRec j := rfl

@[simp] theorem chan_setChan_same (s : State) (a : Arm) (st : Stream) (c : ValveChan) :
    (s.setChan a st c).chan a st = c := by
  cases st <;> simp [State.chan, State.setChan]

theorem chan_setChan_ne (s : State) (a b : Arm) (st su : Stream) (c : ValveChan)
    (h : a ≠ b ∨ st ≠ su) : (s.setChan a st c).chan b su = s.chan b su := by
  cases st <;> cases su <;> simp_all [State.chan, State.setChan]

@[simp] theorem grantOf_setGrant_same (s : State) (a : Arm) (g : Grant) :
    (s.setGrant a g).grantOf a = g := by
  simp [State.grantOf, State.setGrant]

@[simp] theorem grantOf_setGrant_ne (s : State) (a b : Arm) (g : Grant) (h : a ≠ b) :
    (s.setGrant a g).grantOf b = s.grantOf b := by
  simp [State.grantOf, State.setGrant, h]

@[simp] theorem injRun_setInjRun_same (s : State) (c : Channel) (r : InjRun) :
    (s.setInjRun c r).injRun c = r := by
  simp [State.injRun, State.setInjRun]

@[simp] theorem injRun_setInjRun_ne (s : State) (c d : Channel) (r : InjRun) (h : c ≠ d) :
    (s.setInjRun c r).injRun d = s.injRun d := by
  simp [State.injRun, State.setInjRun, h]

theorem injRun_setInjRun (s : State) (c d : Channel) (r : InjRun) :
    (s.setInjRun c r).injRun d = if c = d then r else s.injRun d := by
  simp [State.injRun, State.setInjRun, sel_put]

@[simp] theorem injRec_setInjRun (s : State) (c d : Channel) (r : InjRun) :
    (s.setInjRun c r).injRec d = s.injRec d := rfl

@[simp] theorem portD_setPortD_same (s : State) (p : DPort) (x : PortD) :
    (s.setPortD p x).portD p = x := by
  cases p <;> rfl

theorem portD_setPortD_ne (s : State) (p q : DPort) (x : PortD) (h : p ≠ q) :
    (s.setPortD p x).portD q = s.portD q := by
  cases p <;> cases q <;> simp_all [State.portD, State.setPortD]

end Machine

end Sys2Proof
end

