-- ==== Sys2Proof/Laws/Quiet.lean ====
section
/-! SUPPORT. What no evaluation, alert, close, fault or grant touches: the quiet part of State, with one lemma for each shared operation. -/

namespace Sys2Proof.Machine

/-- The part of a D port that orders of the engine leave: all but the normal queue. -/
def portQuiet (x : PortD) : Framer × List Frame × List StopFrame × Option Sending × Counters :=
  (x.framer, x.reports, x.urgent, x.sending, x.counters)

/-- The part of State that the cascades of one act leave as it was: settings, mode and time, Port U,
the Node Map and filters, the tables, the lists of reports not yet taken, the Lane Stop Unit, the permit
bits, the unassigned volumes, the waiting commands, and of a D port all but its normal queue. -/
def quiet (s : State) :=
  ((s.mgmt, s.portU, s.relay, s.pending, s.free, s.stop, s.header.record),
   (s.arms.table, s.arms.recipes, s.arms.permits, s.arms.permitTimer, s.arms.permitReports),
   (s.meter.table, s.meter.samples, s.meter.unassigned), (s.inj.table, s.inj.reports),
   s.reg.reports, portQuiet s.d0, portQuiet s.d1)

/-- A fold of operations that keep the quiet part keeps it. -/
theorem foldl_quiet {α : Type} (f : State → α → State) (h : ∀ s x, quiet (f s x) = quiet s)
    (xs : List α) (s : State) : quiet (xs.foldl f s) = quiet s := by
  induction xs generalizing s with
  | nil => rfl
  | cons x xs ih => rw [List.foldl_cons, ih, h]

/-! ## Single updates -/

@[simp] theorem setCtx_quiet (s : State) (a : Arm) (c : ArmCtx) : quiet (s.setCtx a c) = quiet s := rfl

@[simp] theorem modCtx_quiet (s : State) (a : Arm) (f : ArmCtx → ArmCtx) :
    quiet (s.modCtx a f) = quiet s := rfl

@[simp] theorem setClose_quiet (s : State) (a : Arm) (c : CloseRun) :
    quiet (s.setClose a c) = quiet s := rfl

@[simp] theorem setMeterRun_quiet (s : State) (i : Slot) (r : MeterRun) :
    quiet (s.setMeterRun i r) = quiet s := rfl

@[simp] theorem setChan_quiet (s : State) (a : Arm) (st : Stream) (c : ValveChan) :
    quiet (s.setChan a st c) = quiet s := by cases st <;> rfl

@[simp] theorem setWatch_quiet (s : State) (a : Arm) (b : Bool) :
    quiet (s.setWatch a b) = quiet s := rfl

@[simp] theorem setGrant_quiet (s : State) (a : Arm) (g : Grant) :
    quiet (s.setGrant a g) = quiet s := rfl

@[simp] theorem setWaitTimer_quiet (s : State) (a : Arm) (t : WaitTimer) :
    quiet (s.setWaitTimer a t) = quiet s := rfl

@[simp] theorem setInjRun_quiet (s : State) (c : Channel) (r : InjRun) :
    quiet (s.setInjRun c r) = quiet s := rfl

@[simp] theorem joinNormal_quiet (p : DPort) (f : NormalFrame) (s : State) :
    quiet (joinNormal p f s) = quiet s := by cases p <;> rfl

@[simp] theorem setAlerts_quiet (xs : List Alert) (s : State) : quiet (setAlerts xs s) = quiet s := rfl

@[simp] theorem settleAlerts_quiet (s : State) : quiet (settleAlerts s) = quiet s := rfl

@[simp] theorem enterAlert_quiet (k : AlertKind) (j : Subject) (s : State) :
    quiet (enterAlert k j s) = quiet s := by
  simp only [enterAlert]
  (repeat' split) <;> rfl

@[simp] theorem raiseAlert_quiet (k : AlertKind) (j : Subject) (s : State) :
    quiet (raiseAlert k j s) = quiet s := by simp [raiseAlert]

@[simp] theorem callPass_quiet (s : State) : quiet (callPass s) = quiet s := by
  simp only [callPass]
  split <;> rfl

@[simp] theorem setPhase_quiet (a : Arm) (p : ArmPhase) (s : State) :
    quiet (setPhase a p s) = quiet s := rfl

@[simp] theorem dequeue_quiet (a : Arm) (s : State) : quiet (dequeue a s) = quiet s := rfl

@[simp] theorem setFaultCode_quiet (a : Arm) (k : AlertKind) (s : State) :
    quiet (setFaultCode a k s) = quiet s := rfl

/-! ## Orders and evaluations -/

@[simp] theorem sendValveOrder_quiet (a : Arm) (st : Stream) (d : Nat) (addr : Byte) (p : DPort)
    (s : State) : quiet (sendValveOrder a st d addr p s) = quiet s := by simp [sendValveOrder]

@[simp] theorem placeOrder_quiet (a : Arm) (st : Stream) (d : Nat) (s : State) :
    quiet (placeOrder a st d s) = quiet s := by
  simp only [placeOrder]
  (repeat' split) <;> simp

@[simp] theorem handDemand_quiet (a : Arm) (st : Stream) (d : Nat) (s : State) :
    quiet (handDemand a st d s) = quiet s := by
  simp only [handDemand]
  (repeat' split) <;> simp

@[simp] theorem handDemands_quiet (a : Arm) (s : State) : quiet (handDemands a s) = quiet s := by
  simp only [handDemands]
  (repeat' split) <;> simp

@[simp] theorem capEval_quiet (a : Arm) (s : State) : quiet (capEval a s) = quiet s := by
  simp [capEval]

@[simp] theorem capEvalIfFlowing_quiet (a : Arm) (s : State) :
    quiet (capEvalIfFlowing a s) = quiet s := by
  simp only [capEvalIfFlowing]
  split <;> simp

@[simp] theorem restEval_quiet (a : Arm) (s : State) : quiet (restEval a s) = quiet s := by
  simp [restEval]

/-! ## Strokes -/

@[simp] theorem sendStroke_quiet (c : Channel) (o : Bool) (addr : Byte) (p : DPort) (s : State) :
    quiet (sendStroke c o addr p s) = quiet s := by simp [sendStroke]

@[simp] theorem serveChannel_quiet (c : Channel) (s : State) :
    quiet (serveChannel c s) = quiet s := by
  simp only [serveChannel]
  (repeat' split) <;> simp

@[simp] theorem judgePace_quiet (a : Arm) (s : State) : quiet (judgePace a s) = quiet s := by
  simp only [judgePace]
  (repeat' split) <;> simp

@[simp] theorem judgeOutlet_quiet (c : Channel) (r : InjRun) (s : State) (o : Bool) :
    quiet (judgeOutlet c r s o) = quiet s := by
  simp only [judgeOutlet]
  split
  · split
    · rfl
    · exact judgePace_quiet ..
  · rfl

@[simp] theorem modLine_quiet (a : Arm) (c : Channel) (f : LineState → LineState) (s : State) :
    quiet (modLine a c f s) = quiet s := rfl

@[simp] theorem placeStrokes_quiet (a : Arm) (p : ArmPhase) (l : LineState) (k : Nat) (s : State) :
    quiet (placeStrokes a p l k s) = quiet s := by
  simp only [placeStrokes]
  (repeat' split) <;> simp <;> split <;> simp

@[simp] theorem lineDue_quiet (a : Arm) (p : ArmPhase) (s : State) (l : LineState) :
    quiet (lineDue a p s l) = quiet s := by
  simp only [lineDue]
  (repeat' split) <;> simp

@[simp] theorem strokesFall_quiet (a : Arm) (p : ArmPhase) (s : State) :
    quiet (strokesFall a p s) = quiet s := foldl_quiet _ (by simp) _ _

@[simp] theorem shedLine_quiet (a : Arm) (s : State) (l : LineState) :
    quiet (shedLine a s l) = quiet s := by
  simp only [shedLine]
  (repeat' split) <;> simp

@[simp] theorem shedStrokes_quiet (a : Arm) (s : State) : quiet (shedStrokes a s) = quiet s := by
  simp [shedStrokes, foldl_quiet (shedLine a) (shedLine_quiet a)]

@[simp] theorem uncountStroke_quiet (a : Arm) (s : State) (c : Channel) :
    quiet (uncountStroke a s c) = quiet s := by
  simp only [uncountStroke]
  (repeat' split) <;> simp

@[simp] theorem uncountStrokes_quiet (a : Arm) (s : State) :
    quiet (uncountStrokes a s) = quiet s := foldl_quiet _ (uncountStroke_quiet a) _ _

/-! ## Shares, closes and faults -/

@[simp] theorem refigureArm_quiet (s : State) (a : Arm) : quiet (refigureArm s a) = quiet s := by
  simp only [refigureArm]
  (repeat' split) <;> simp

@[simp] theorem setEffective_quiet (v : Nat) (s : State) : quiet (setEffective v s) = quiet s :=
  foldl_quiet _ refigureArm_quiet _ _

@[simp] theorem afterRelease_quiet (s : State) : quiet (afterRelease s) = quiet s := by
  simp only [afterRelease]
  (repeat' split) <;> simp

@[simp] theorem releaseShares_quiet (a : Arm) (s : State) : quiet (releaseShares a s) = quiet s := by
  simp [releaseShares]

@[simp] theorem startSilence_quiet (a : Arm) (s : State) : quiet (startSilence a s) = quiet s :=
  foldl_quiet _ (by intro s i; dsimp only; split <;> simp) _ _

@[simp] theorem stopSilence_quiet (a : Arm) (s : State) : quiet (stopSilence a s) = quiet s :=
  foldl_quiet _ (by intro s i; simp) _ _

@[simp] theorem enterDone_quiet (a : Arm) (why : EndReason) (s : State) :
    quiet (enterDone a why s) = quiet s := by
  simp only [enterDone]
  split <;> rfl

@[simp] theorem leaveClosing_quiet (a : Arm) (s : State) : quiet (leaveClosing a s) = quiet s := by
  simp [leaveClosing]

@[simp] theorem completeClose_quiet (a : Arm) (s : State) : quiet (completeClose a s) = quiet s := by
  simp only [completeClose]
  split <;> simp

@[simp] theorem judgeClose_quiet (a : Arm) (s : State) : quiet (judgeClose a s) = quiet s := by
  simp only [judgeClose]
  split <;> simp

@[simp] theorem recheckSettled_quiet (a : Arm) (s : State) : quiet (recheckSettled a s) = quiet s := by
  simp only [recheckSettled]
  split <;> simp

@[simp] theorem leaveQueue_quiet (a : Arm) (s : State) : quiet (leaveQueue a s) = quiet s := by
  simp [leaveQueue]

@[simp] theorem cancelYield_quiet (a : Arm) (s : State) : quiet (cancelYield a s) = quiet s := by
  simp [cancelYield]

@[simp] theorem beginClose_quiet (a : Arm) (why : CloseReason) (s : State) :
    quiet (beginClose a why s) = quiet s := by simp [beginClose]

@[simp] theorem enterClosing_quiet (a : Arm) (why : CloseReason) (s : State) :
    quiet (enterClosing a why s) = quiet s := by
  simp only [enterClosing, judgeClose_quiet, restEval_quiet, cancelYield_quiet, beginClose_quiet]
  split <;> simp

@[simp] theorem faultEffect_quiet (a : Arm) (k : AlertKind) (s : State) :
    quiet (faultEffect a k s) = quiet s := by
  simp only [faultEffect]
  (repeat' split) <;> simp

@[simp] theorem faultArm_quiet (a : Arm) (k : AlertKind) (s : State) :
    quiet (faultArm a k s) = quiet s := by simp [faultArm]

@[simp] theorem faultRunning_quiet (arms : Byte) (k : AlertKind) (s : State) :
    quiet (faultRunning arms k s) = quiet s :=
  foldl_quiet _ (by intro s a; split <;> simp) _ _

/-! ## Phases and grants -/

@[simp] theorem phaseCheck_quiet (a : Arm) (s : State) : quiet (phaseCheck a s) = quiet s := by
  simp only [phaseCheck]
  (repeat' split) <;> simp

@[simp] theorem clearHeadRaised_quiet (a : Arm) (s : State) : quiet (clearHeadRaised a s) = quiet s :=
  foldl_quiet _ (by intro s i; dsimp only; split <;> simp) _ _

@[simp] theorem checkAdditives_quiet (a : Arm) (s : State) : quiet (checkAdditives a s) = quiet s := by
  simp only [checkAdditives]
  split <;> simp

@[simp] theorem enterStarting_quiet (a : Arm) (s : State) : quiet (enterStarting a s) = quiet s := by
  simp [enterStarting]

@[simp] theorem sampleEval_quiet (a : Arm) (s : State) : quiet (sampleEval a s) = quiet s := by
  simp only [sampleEval]
  split <;> simp

@[simp] theorem evalForSample_quiet (a : Arm) (s : State) : quiet (evalForSample a s) = quiet s := by
  simp only [evalForSample]
  (repeat' split) <;> simp

@[simp] theorem evalAndPhase_quiet (b : Bool) (a : Arm) (s : State) :
    quiet (evalAndPhase b a s) = quiet s := by
  simp only [evalAndPhase]
  split <;> simp

@[simp] theorem askYield_quiet (a : Arm) (s : State) : quiet (askYield a s) = quiet s := by
  simp only [askYield]
  split
  · exact (capEval_quiet a _).trans (setGrant_quiet s a _)
  · simp

@[simp] theorem askUntil_quiet (need : Nat) (xs : List Arm) (s : State) :
    quiet (askUntil need xs s) = quiet s := by
  induction xs generalizing s with
  | nil => rfl
  | cons x xs ih => simp only [askUntil]; split <;> simp [ih]

@[simp] theorem yieldsFor_quiet (h : Arm) (s : State) : quiet (yieldsFor h s) = quiet s := by
  simp only [yieldsFor]
  split <;> simp

@[simp] theorem grantHead_quiet (h : Arm) (s : State) : quiet (grantHead h s) = quiet s := by
  simp only [grantHead, enterStarting_quiet]
  rfl

@[simp] theorem startSpacing_quiet (s : State) : quiet (startSpacing s) = quiet s := by
  simp only [startSpacing]
  split <;> rfl

@[simp] theorem topUp_quiet (s : State) (a : Arm) : quiet (topUp s a) = quiet s := by
  simp only [topUp]
  split <;> simp

@[simp] theorem serveQueue_quiet (n : Nat) (s : State) : quiet (serveQueue n s) = quiet s := by
  induction n generalizing s with
  | zero => rfl
  | succ n ih =>
    simp only [serveQueue]
    (repeat' split) <;> simp [ih, foldl_quiet topUp topUp_quiet]

@[simp] theorem makePass_quiet (s : State) : quiet (makePass s) = quiet s := by
  simp only [makePass]
  split
  · rfl
  · exact serveQueue_quiet _ _

@[simp] theorem enterWaiting_quiet (a : Arm) (s : State) : quiet (enterWaiting a s) = quiet s := by
  simp only [enterWaiting, callPass_quiet]
  rfl

@[simp] theorem beginFlow_quiet (a : Arm) (s : State) : quiet (beginFlow a s) = quiet s := by
  simp only [beginFlow]
  split <;> simp

@[simp] theorem changeCapacity_quiet (v : Nat) (s : State) :
    quiet (changeCapacity v s) = quiet s := by
  simp only [changeCapacity]
  split
  · simp
  · exact foldl_quiet _ (by simp) _ _

@[simp] theorem toIdle_quiet (a : Arm) (s : State) : quiet (toIdle a s) = quiet s := by
  simp [toIdle]

@[simp] theorem dropOwed_quiet (c : Channel) (s : State) (o : Bool) :
    quiet (dropOwed c s o) = quiet s := by
  simp only [dropOwed]
  split <;> simp

@[simp] theorem isolate_quiet (c : Channel) (s : State) : quiet (isolate c s) = quiet s := by
  simp only [isolate]
  rw [foldl_quiet _ (by simp), foldl_quiet _ (by intro s a; split <;> simp)]
  simp

end Sys2Proof.Machine
end

