-- ==== Sys2Proof/Laws/Calm.lean ====
section
/-! SUPPORT. What valve orders, evaluations, strokes and shares leave: the reports, the wait queue and the key of every context, with one lemma for each shared operation. -/

namespace Sys2Proof.Machine

/-- The key of a context: state, batch, slot, totals, phase base, start time, fault code and close
reason. Evaluations and strokes write none of them. -/
def key (c : ArmCtx) :=
  (c.state, c.batch, c.reservedSlot, c.g, c.e, c.phaseBase, c.startTime, c.faultCode, c.closeReason)

/-- What orders, evaluations, strokes and shares leave as it was. -/
def calm (s : State) := (s.rep, s.header.queue, fun a => key (s.ctxOf a))

/-- A fold of operations that keep the calm part keeps it. -/
theorem foldl_calm {α : Type} (f : State → α → State) (h : ∀ s x, calm (f s x) = calm s)
    (xs : List α) (s : State) : calm (xs.foldl f s) = calm s := by
  induction xs generalizing s with
  | nil => rfl
  | cons x xs ih => rw [List.foldl_cons, ih, h]

/-- A change of a context that leaves its key. -/
theorem modCtx_calm (s : State) (a : Arm) (f : ArmCtx → ArmCtx)
    (h : key (f (s.ctxOf a)) = key (s.ctxOf a)) : calm (s.modCtx a f) = calm s := by
  unfold calm
  have e : (fun b => key ((s.modCtx a f).ctxOf b)) = fun b => key (s.ctxOf b) := by
    funext b
    rw [ctxOf_modCtx]
    split
    · rename_i hab; rw [h, hab]
    · rfl
  rw [e]
  rfl

/-! ## Single updates -/

@[simp] theorem setClose_calm (s : State) (a : Arm) (c : CloseRun) :
    calm (s.setClose a c) = calm s := rfl

@[simp] theorem setMeterRun_calm (s : State) (i : Slot) (r : MeterRun) :
    calm (s.setMeterRun i r) = calm s := rfl

@[simp] theorem setChan_calm (s : State) (a : Arm) (st : Stream) (c : ValveChan) :
    calm (s.setChan a st c) = calm s := by cases st <;> rfl

@[simp] theorem setWatch_calm (s : State) (a : Arm) (b : Bool) :
    calm (s.setWatch a b) = calm s := rfl

@[simp] theorem setGrant_calm (s : State) (a : Arm) (g : Grant) :
    calm (s.setGrant a g) = calm s := rfl

@[simp] theorem setWaitTimer_calm (s : State) (a : Arm) (t : WaitTimer) :
    calm (s.setWaitTimer a t) = calm s := rfl

@[simp] theorem setInjRun_calm (s : State) (c : Channel) (r : InjRun) :
    calm (s.setInjRun c r) = calm s := rfl

@[simp] theorem joinNormal_calm (p : DPort) (f : NormalFrame) (s : State) :
    calm (joinNormal p f s) = calm s := by cases p <;> rfl

@[simp] theorem callPass_calm (s : State) : calm (callPass s) = calm s := by
  simp only [callPass]
  split <;> rfl

/-! ## Orders and evaluations -/

@[simp] theorem sendValveOrder_calm (a : Arm) (st : Stream) (d : Nat) (addr : Byte) (p : DPort)
    (s : State) : calm (sendValveOrder a st d addr p s) = calm s := by simp [sendValveOrder]

@[simp] theorem placeOrder_calm (a : Arm) (st : Stream) (d : Nat) (s : State) :
    calm (placeOrder a st d s) = calm s := by
  simp only [placeOrder]
  (repeat' split) <;> simp

@[simp] theorem handDemand_calm (a : Arm) (st : Stream) (d : Nat) (s : State) :
    calm (handDemand a st d s) = calm s := by
  simp only [handDemand]
  (repeat' split) <;> simp

@[simp] theorem handDemands_calm (a : Arm) (s : State) : calm (handDemands a s) = calm s := by
  simp only [handDemands]
  (repeat' split) <;> simp

@[simp] theorem capEval_calm (a : Arm) (s : State) : calm (capEval a s) = calm s := by
  simp only [capEval, handDemands_calm]
  exact modCtx_calm _ _ _ rfl

@[simp] theorem capEvalIfFlowing_calm (a : Arm) (s : State) :
    calm (capEvalIfFlowing a s) = calm s := by
  simp only [capEvalIfFlowing]
  split <;> simp

@[simp] theorem restEval_calm (a : Arm) (s : State) : calm (restEval a s) = calm s := by
  simp only [restEval, handDemands_calm]
  exact modCtx_calm _ _ _ rfl

/-! ## Strokes -/

@[simp] theorem sendStroke_calm (c : Channel) (o : Bool) (addr : Byte) (p : DPort) (s : State) :
    calm (sendStroke c o addr p s) = calm s := by simp [sendStroke]

@[simp] theorem serveChannel_calm (c : Channel) (s : State) :
    calm (serveChannel c s) = calm s := by
  simp only [serveChannel]
  (repeat' split) <;> simp

@[simp] theorem judgePace_calm (a : Arm) (s : State) : calm (judgePace a s) = calm s := by
  simp only [judgePace]
  split
  · rfl
  · rw [capEvalIfFlowing_calm]
    exact modCtx_calm _ _ _ rfl

@[simp] theorem judgeOutlet_calm (c : Channel) (r : InjRun) (s : State) (o : Bool) :
    calm (judgeOutlet c r s o) = calm s := by
  simp only [judgeOutlet]
  split
  · split
    · rfl
    · exact judgePace_calm ..
  · rfl

@[simp] theorem modLine_calm (a : Arm) (c : Channel) (f : LineState → LineState) (s : State) :
    calm (modLine a c f s) = calm s := modCtx_calm _ _ _ rfl

@[simp] theorem shedLine_calm (a : Arm) (s : State) (l : LineState) :
    calm (shedLine a s l) = calm s := by
  simp only [shedLine]
  (repeat' split) <;> simp

@[simp] theorem shedStrokes_calm (a : Arm) (s : State) : calm (shedStrokes a s) = calm s := by
  simp [shedStrokes, foldl_calm (shedLine a) (shedLine_calm a)]

@[simp] theorem uncountStroke_calm (a : Arm) (s : State) (c : Channel) :
    calm (uncountStroke a s c) = calm s := by
  simp only [uncountStroke]
  (repeat' split) <;> simp

@[simp] theorem uncountStrokes_calm (a : Arm) (s : State) :
    calm (uncountStrokes a s) = calm s := foldl_calm _ (uncountStroke_calm a) _ _

/-! ## Shares, closes and faults -/

@[simp] theorem refigureArm_calm (s : State) (a : Arm) : calm (refigureArm s a) = calm s := by
  simp only [refigureArm]
  (repeat' split) <;> simp

@[simp] theorem setEffective_calm (v : Nat) (s : State) : calm (setEffective v s) = calm s :=
  foldl_calm _ refigureArm_calm _ _

@[simp] theorem afterRelease_calm (s : State) : calm (afterRelease s) = calm s := by
  simp only [afterRelease]
  (repeat' split) <;> simp

@[simp] theorem releaseShares_calm (a : Arm) (s : State) : calm (releaseShares a s) = calm s := by
  simp [releaseShares]

@[simp] theorem startSilence_calm (a : Arm) (s : State) : calm (startSilence a s) = calm s :=
  foldl_calm _ (by intro s i; dsimp only; split <;> simp) _ _

@[simp] theorem stopSilence_calm (a : Arm) (s : State) : calm (stopSilence a s) = calm s :=
  foldl_calm _ (by intro s i; simp) _ _

@[simp] theorem recheckSettled_calm (a : Arm) (s : State) : calm (recheckSettled a s) = calm s := by
  simp only [recheckSettled]
  split <;> simp

@[simp] theorem cancelYield_calm (a : Arm) (s : State) : calm (cancelYield a s) = calm s := by
  simp [cancelYield]

/-! ## Phases and grants -/

@[simp] theorem clearHeadRaised_calm (a : Arm) (s : State) : calm (clearHeadRaised a s) = calm s :=
  foldl_calm _ (by intro s i; dsimp only; split <;> simp) _ _

@[simp] theorem askYield_calm (a : Arm) (s : State) : calm (askYield a s) = calm s := by
  simp only [askYield]
  split
  · exact (capEval_calm a _).trans (setGrant_calm s a _)
  · simp

@[simp] theorem askUntil_calm (need : Nat) (xs : List Arm) (s : State) :
    calm (askUntil need xs s) = calm s := by
  induction xs generalizing s with
  | nil => rfl
  | cons x xs ih => simp only [askUntil]; split <;> simp [ih]

@[simp] theorem yieldsFor_calm (h : Arm) (s : State) : calm (yieldsFor h s) = calm s := by
  simp only [yieldsFor]
  split <;> simp

@[simp] theorem startSpacing_calm (s : State) : calm (startSpacing s) = calm s := by
  simp only [startSpacing]
  split <;> rfl

@[simp] theorem topUp_calm (s : State) (a : Arm) : calm (topUp s a) = calm s := by
  simp only [topUp]
  split <;> simp

@[simp] theorem changeCapacity_calm (v : Nat) (s : State) :
    calm (changeCapacity v s) = calm s := by
  simp only [changeCapacity]
  split
  · simp
  · exact foldl_calm _ (by simp) _ _

@[simp] theorem dropOwed_calm (c : Channel) (s : State) (o : Bool) :
    calm (dropOwed c s o) = calm s := by
  simp only [dropOwed]
  split <;> simp

end Sys2Proof.Machine
end

