-- ==== Sys2Proof/Laws/Alerts.lean ====
section
/-! SUPPORT. The Alert List and ALERT_N keep their law (R162, R166) under every shared operation. -/

namespace Sys2Proof.Machine

/-- The Alert List part of OutputsOk. -/
def alertsOk (s : State) : Prop :=
  s.rep.alertOut = alertLine s.mgmt.settings.pinLevel s.rep.alerts ∧
    s.rep.alerts.length ≤ Config.alertSize ∧ distinctEntries s.rep.alerts = true

theorem rep_of_calm {s t : State} (h : calm t = calm s) : t.rep = s.rep := congrArg Prod.fst h

theorem mgmt_of_quiet {s t : State} (h : quiet t = quiet s) : t.mgmt = s.mgmt :=
  congrArg (fun x => x.1.1) h

/-- An operation that leaves the calm and the quiet part leaves the law. -/
theorem alertsOk_of_calm {s t : State} (hc : calm t = calm s) (hq : quiet t = quiet s)
    (h : alertsOk s) : alertsOk t := by
  unfold alertsOk at *
  rw [rep_of_calm hc, mgmt_of_quiet hq]
  exact h

/-- Changes of a context leave the law. -/
theorem alertsOk_modCtx {s : State} (a : Arm) (f : ArmCtx → ArmCtx) (h : alertsOk s) :
    alertsOk (s.modCtx a f) := h

theorem alertsOk_setPhase {s : State} (a : Arm) (p : ArmPhase) (h : alertsOk s) :
    alertsOk (setPhase a p s) := h

theorem alertsOk_beginClose {s : State} (a : Arm) (why : CloseReason) (h : alertsOk s) :
    alertsOk (beginClose a why s) := h

theorem alertsOk_setFaultCode {s : State} (a : Arm) (k : AlertKind) (h : alertsOk s) :
    alertsOk (setFaultCode a k s) := h

/-! ## Lists of entries -/

/-- A function that keeps kind and subject of the entries it keeps. -/
def keepsName (f : Alert → Option Alert) : Prop :=
  ∀ x y, f x = some y → y.kind = x.kind ∧ y.subject = x.subject

theorem sameEntry_congr {x x' y y' : Alert} (hx : x'.kind = x.kind ∧ x'.subject = x.subject)
    (hy : y'.kind = y.kind ∧ y'.subject = y.subject) : sameEntry x' y' = sameEntry x y := by
  simp [sameEntry, hx, hy]

theorem distinct_filterMap (f : Alert → Option Alert) (hf : keepsName f) (xs : List Alert)
    (h : distinctEntries xs = true) : distinctEntries (xs.filterMap f) = true := by
  induction xs with
  | nil => rfl
  | cons x xs ih =>
    simp only [distinctEntries, Bool.and_eq_true, List.all_eq_true] at h
    cases hx : f x with
    | none => simpa [List.filterMap_cons, hx] using ih h.2
    | some x' =>
      simp only [List.filterMap_cons, hx, distinctEntries, Bool.and_eq_true, List.all_eq_true]
      refine ⟨?_, ih h.2⟩
      intro y' hy'
      obtain ⟨y, hy, hfy⟩ := List.mem_filterMap.1 hy'
      rw [sameEntry_congr (hf x x' hx) (hf y y' hfy)]
      exact h.1 y hy

theorem distinct_map (f : Alert → Alert) (hf : ∀ x, (f x).kind = x.kind ∧ (f x).subject = x.subject)
    (xs : List Alert) (h : distinctEntries xs = true) : distinctEntries (xs.map f) = true := by
  have := distinct_filterMap (fun x => some (f x)) (by intro x y e; cases e; exact hf x) xs h
  simpa using this

theorem distinct_append (xs : List Alert) (x : Alert) (h : distinctEntries xs = true)
    (hx : ∀ y ∈ xs, sameEntry y x = false) : distinctEntries (xs ++ [x]) = true := by
  induction xs with
  | nil => rfl
  | cons y ys ih =>
    simp only [distinctEntries, Bool.and_eq_true, List.all_eq_true] at h
    simp only [List.cons_append, distinctEntries, Bool.and_eq_true, List.all_eq_true,
      List.mem_append, List.mem_singleton]
    refine ⟨?_, ih h.2 (fun z hz => hx z (List.mem_cons_of_mem _ hz))⟩
    rintro z (hz | rfl)
    · exact h.1 z hz
    · simp [hx y (List.mem_cons_self ..)]

theorem settleEntry_keepsName (s : State) : keepsName (settleEntry s) := by
  intro x y h
  unfold settleEntry at h
  (repeat' split at h) <;> simp_all <;> subst h <;> simp

theorem ackEntry_keepsName (mark : Nat) : keepsName (ackEntry mark) := by
  intro x y h
  unfold ackEntry at h
  (repeat' split at h) <;> simp_all <;> subst h <;> simp

/-! ## Alert operations -/

theorem alertsOk_setAlerts {xs : List Alert} {s : State} (hl : xs.length ≤ Config.alertSize)
    (hd : distinctEntries xs = true) : alertsOk (setAlerts xs s) := ⟨rfl, hl, hd⟩

theorem alertsOk_settle {s : State} (h : alertsOk s) : alertsOk (settleAlerts s) :=
  alertsOk_setAlerts (Nat.le_trans (List.length_filterMap_le ..) h.2.1)
    (distinct_filterMap _ (settleEntry_keepsName s) _ h.2.2)

theorem alertsOk_enter (k : AlertKind) (j : Subject) {s : State} (h : alertsOk s) :
    alertsOk (enterAlert k j s) := by
  simp only [enterAlert]
  split
  · refine alertsOk_setAlerts (by simpa using h.2.1) (distinct_map _ ?_ _ h.2.2)
    intro x
    split <;> simp
  · rename_i hn
    split
    · rename_i hl
      refine alertsOk_setAlerts (by simp only [List.length_append, List.length_singleton]; omega)
        (distinct_append _ _ h.2.2 ?_)
      intro y hy
      have := fun hy' => hn (List.any_eq_true.2 ⟨y, hy, hy'⟩)
      simpa [isEntry, sameEntry] using this
    · exact h

theorem alertsOk_raise (k : AlertKind) (j : Subject) {s : State} (h : alertsOk s) :
    alertsOk (raiseAlert k j s) := alertsOk_enter k j (alertsOk_settle h)

/-- The state leaves alone everything but the Reporting Unit when an alert is raised or settled. -/
theorem ctxOf_settleAlerts (s : State) (a : Arm) : (settleAlerts s).ctxOf a = s.ctxOf a := rfl

theorem enterAlert_rest (k : AlertKind) (j : Subject) (s : State) :
    ∃ r, enterAlert k j s = { s with rep := r } ∧ r.records = s.rep.records ∧
      r.reserved = s.rep.reserved := by
  simp only [enterAlert]
  (repeat' split) <;> exact ⟨_, rfl, rfl, rfl⟩

/-- A raise changes the Reporting Unit alone, and of it neither records nor reservations. -/
theorem raiseAlert_rest (k : AlertKind) (j : Subject) (s : State) :
    ∃ r, raiseAlert k j s = { s with rep := r } ∧ r.records = s.rep.records ∧
      r.reserved = s.rep.reserved := by
  obtain ⟨r, h, hr, hs⟩ := enterAlert_rest k j (settleAlerts s)
  exact ⟨r, h, hr, hs⟩

/-! ## Closes and faults -/

theorem alertsOk_fold {α : Type} (f : State → α → State)
    (hf : ∀ s x, alertsOk s → alertsOk (f s x)) (xs : List α) {s : State} (h : alertsOk s) :
    alertsOk (xs.foldl f s) := by
  induction xs generalizing s with
  | nil => exact h
  | cons x xs ih => exact ih (hf s x h)

theorem alertsOk_enterDone (a : Arm) (why : EndReason) {s : State} (h : alertsOk s) :
    alertsOk (enterDone a why s) := by
  simp only [enterDone]
  split <;> exact h

theorem alertsOk_dequeue (a : Arm) {s : State} (h : alertsOk s) : alertsOk (dequeue a s) := h

theorem alertsOk_callPass {s : State} (h : alertsOk s) : alertsOk (callPass s) :=
  alertsOk_of_calm (callPass_calm s) (callPass_quiet s) h

theorem alertsOk_leaveQueue (a : Arm) {s : State} (h : alertsOk s) : alertsOk (leaveQueue a s) :=
  alertsOk_callPass (alertsOk_dequeue a h)

theorem alertsOk_leaveClosing (a : Arm) {s : State} (h : alertsOk s) : alertsOk (leaveClosing a s) := by
  simp only [leaveClosing]
  refine alertsOk_of_calm (stopSilence_calm ..) (stopSilence_quiet ..) ?_
  refine alertsOk_of_calm (releaseShares_calm ..) (releaseShares_quiet ..) ?_
  refine alertsOk_of_calm (shedStrokes_calm ..) (shedStrokes_quiet ..) ?_
  exact h

theorem alertsOk_completeClose (a : Arm) {s : State} (h : alertsOk s) : alertsOk (completeClose a s) := by
  simp only [completeClose]
  split
  · exact alertsOk_enterDone _ _ (alertsOk_leaveClosing a h)
  · exact alertsOk_enterDone _ _ (alertsOk_leaveClosing a h)
  · exact alertsOk_setPhase _ _ (alertsOk_leaveClosing a h)
  · exact alertsOk_setPhase _ _ (alertsOk_leaveClosing a h)
  · exact h

theorem alertsOk_judgeClose (a : Arm) {s : State} (h : alertsOk s) : alertsOk (judgeClose a s) := by
  simp only [judgeClose]
  split
  · exact alertsOk_completeClose a h
  · exact h

theorem alertsOk_enterClosing (a : Arm) (why : CloseReason) {s : State} (h : alertsOk s) :
    alertsOk (enterClosing a why s) := by
  simp only [enterClosing]
  refine alertsOk_judgeClose a (alertsOk_of_calm (restEval_calm ..) (restEval_quiet ..) ?_)
  refine alertsOk_of_calm (cancelYield_calm ..) (cancelYield_quiet ..) (alertsOk_beginClose a why ?_)
  split
  · exact alertsOk_of_calm (startSilence_calm ..) (startSilence_quiet ..) (alertsOk_leaveQueue a h)
  · exact h

theorem alertsOk_faultEffect (a : Arm) (k : AlertKind) {s : State} (h : alertsOk s) :
    alertsOk (faultEffect a k s) := by
  simp only [faultEffect]
  split
  any_goals with_reducible exact h
  any_goals with_reducible exact alertsOk_enterClosing a _ (alertsOk_setFaultCode a k h)
  · split
    · exact h
    · exact alertsOk_modCtx a _ (alertsOk_setFaultCode a k h)
  · exact alertsOk_setPhase a _ (alertsOk_setFaultCode a k h)

theorem alertsOk_faultArm (a : Arm) (k : AlertKind) {s : State} (h : alertsOk s) :
    alertsOk (faultArm a k s) := alertsOk_faultEffect a k (alertsOk_raise k _ h)

theorem alertsOk_faultRunning (arms : Byte) (k : AlertKind) {s : State} (h : alertsOk s) :
    alertsOk (faultRunning arms k s) :=
  alertsOk_fold _ (fun s a h => by
    split
    · exact alertsOk_faultArm a k h
    · exact h) _ h

/-! ## Strokes, phases and passes -/

theorem alertsOk_placeStrokes (a : Arm) (p : ArmPhase) (l : LineState) (k : Nat) {s : State}
    (h : alertsOk s) : alertsOk (placeStrokes a p l k s) := by
  simp only [placeStrokes]
  split
  · refine alertsOk_of_calm (judgePace_calm ..) (judgePace_quiet ..) ?_
    refine alertsOk_of_calm (serveChannel_calm ..) (serveChannel_quiet ..) ?_
    split
    · exact alertsOk_raise _ _ h
    · exact h
  · exact h

theorem alertsOk_strokesFall (a : Arm) (p : ArmPhase) {s : State} (h : alertsOk s) :
    alertsOk (strokesFall a p s) := by
  refine alertsOk_fold _ ?_ _ h
  intro t l ht
  simp only [lineDue]
  split
  · exact alertsOk_placeStrokes a p l _ ht
  · exact ht

theorem alertsOk_capEval (a : Arm) {s : State} (h : alertsOk s) : alertsOk (capEval a s) :=
  alertsOk_of_calm (capEval_calm ..) (capEval_quiet ..) h

theorem alertsOk_phaseCheck (a : Arm) {s : State} (h : alertsOk s) : alertsOk (phaseCheck a s) := by
  simp only [phaseCheck]
  split
  · split
    · exact alertsOk_enterClosing a _ h
    · exact alertsOk_capEval a h
    · exact h
  · exact h

theorem alertsOk_enterStarting (a : Arm) {s : State} (h : alertsOk s) :
    alertsOk (enterStarting a s) := by
  simp only [enterStarting]
  refine alertsOk_phaseCheck a ?_
  simp only [checkAdditives]
  have h' : alertsOk (capEval a (setPhase a .starting (clearHeadRaised a (startSilence a s)))) :=
    alertsOk_capEval a (alertsOk_setPhase a _
      (alertsOk_of_calm (clearHeadRaised_calm ..) (clearHeadRaised_quiet ..)
        (alertsOk_of_calm (startSilence_calm ..) (startSilence_quiet ..) h)))
  split
  · exact alertsOk_faultArm a _ h'
  · exact h'

theorem alertsOk_sampleEval (a : Arm) {s : State} (h : alertsOk s) : alertsOk (sampleEval a s) := by
  simp only [sampleEval]
  split
  · exact alertsOk_faultArm a _ h
  · exact alertsOk_of_calm (handDemands_calm ..) (handDemands_quiet ..) h

theorem alertsOk_evalForSample (a : Arm) {s : State} (h : alertsOk s) :
    alertsOk (evalForSample a s) := by
  simp only [evalForSample]
  split
  · exact alertsOk_sampleEval a h
  · split
    · exact alertsOk_of_calm (restEval_calm ..) (restEval_quiet ..) h
    · exact h

theorem alertsOk_evalAndPhase (b : Bool) (a : Arm) {s : State} (h : alertsOk s) :
    alertsOk (evalAndPhase b a s) := by
  simp only [evalAndPhase]
  split
  · exact alertsOk_evalForSample a (alertsOk_phaseCheck a h)
  · exact alertsOk_phaseCheck a (alertsOk_evalForSample a h)

theorem alertsOk_grantHead (x : Arm) {s : State} (h : alertsOk s) : alertsOk (grantHead x s) := by
  simp only [grantHead]
  exact alertsOk_enterStarting x h

theorem alertsOk_serveQueue (n : Nat) {s : State} (h : alertsOk s) : alertsOk (serveQueue n s) := by
  induction n generalizing s with
  | zero => exact h
  | succ n ih =>
    simp only [serveQueue]
    split
    · exact alertsOk_of_calm (foldl_calm _ topUp_calm _ _) (foldl_quiet _ topUp_quiet _ _) h
    · split
      · have h' := alertsOk_grantHead ‹Arm› (alertsOk_of_calm (startSpacing_calm s) (startSpacing_quiet s) h)
        split
        · exact ih h'
        · exact h'
      · exact alertsOk_of_calm (yieldsFor_calm ..) (yieldsFor_quiet ..) h

theorem alertsOk_makePass {s : State} (h : alertsOk s) : alertsOk (makePass s) := by
  simp only [makePass]
  split
  · exact h
  · exact alertsOk_serveQueue _ h

theorem alertsOk_enterWaiting (a : Arm) {s : State} (h : alertsOk s) : alertsOk (enterWaiting a s) := by
  simp only [enterWaiting]
  exact alertsOk_callPass h

theorem alertsOk_beginFlow (a : Arm) {s : State} (h : alertsOk s) : alertsOk (beginFlow a s) := by
  simp only [beginFlow]
  split
  · exact alertsOk_enterStarting a h
  · exact alertsOk_enterWaiting a h

theorem alertsOk_isolate (c : Channel) {s : State} (h : alertsOk s) : alertsOk (isolate c s) := by
  simp only [isolate]
  refine alertsOk_of_calm (foldl_calm _ (judgeOutlet_calm c _) _ _)
    (foldl_quiet _ (judgeOutlet_quiet c _) _ _) ?_
  refine alertsOk_fold _ (fun s a h => by
    split
    · exact alertsOk_faultArm a _ h
    · exact h) _ ?_
  refine alertsOk_raise _ _ ?_
  exact alertsOk_of_calm (foldl_calm _ (dropOwed_calm c) _ _) (foldl_quiet _ (dropOwed_quiet c) _ _) h

end Sys2Proof.Machine
end

