-- ==== Sys2Proof/Laws/Requests.lean ====
section
/-! SUPPORT. What taking a frame of Port U comes to: at its turn, behind others, and on arrival. -/

namespace Sys2Proof.Machine

/-- A frame at its turn is acted on in the state that has given back its slot. -/
theorem takeU_next {s : State} {x : UItem} (act : State → State) (h : IsNext s x) :
    takeU x act s = act (s.take x) := by
  unfold IsNext at h
  simp only [takeU, turnIn, h, if_true, State.take]

/-- A frame that waits behind others stays. -/
theorem takeU_later {s : State} {x : UItem} (act : State → State)
    (hw : x ∈ aheadOf x s.portU.waiting) (h : ¬ IsNext s x) : takeU x act s = s := by
  unfold IsNext at h
  simp only [takeU, turnIn, h, if_false, hw, if_true]

/-- A request at its turn is judged, and its answer joins the queue. -/
theorem request_next {s : State} {h : ReqHead} {r : Request} (judge : State → Judged)
    (n : NextRequest s h r) :
    request h r judge s = answered h (Request.kindCode r) (judge (s.take (.request h r))) := by
  simp only [request]
  exact takeU_next _ n

@[simp] theorem take_mgmt (s : State) (x : UItem) : (s.take x).mgmt = s.mgmt := rfl
@[simp] theorem take_relay (s : State) (x : UItem) : (s.take x).relay = s.relay := rfl
@[simp] theorem take_meter (s : State) (x : UItem) : (s.take x).meter = s.meter := rfl
@[simp] theorem take_arms (s : State) (x : UItem) : (s.take x).arms = s.arms := rfl
@[simp] theorem take_reg (s : State) (x : UItem) : (s.take x).reg = s.reg := rfl
@[simp] theorem take_header (s : State) (x : UItem) : (s.take x).header = s.header := rfl
@[simp] theorem take_inj (s : State) (x : UItem) : (s.take x).inj = s.inj := rfl
@[simp] theorem take_stop (s : State) (x : UItem) : (s.take x).stop = s.stop := rfl
@[simp] theorem take_rep (s : State) (x : UItem) : (s.take x).rep = s.rep := rfl
@[simp] theorem take_free (s : State) (x : UItem) : (s.take x).free = s.free := rfl
@[simp] theorem take_d0 (s : State) (x : UItem) : (s.take x).d0 = s.d0 := rfl
@[simp] theorem take_d1 (s : State) (x : UItem) : (s.take x).d1 = s.d1 := rfl
@[simp] theorem take_pending (s : State) (x : UItem) : (s.take x).pending = s.pending := rfl
@[simp] theorem take_ctxOf (s : State) (x : UItem) (a : Arm) : (s.take x).ctxOf a = s.ctxOf a := rfl
@[simp] theorem take_armRec (s : State) (x : UItem) (a : Arm) : (s.take x).armRec a = s.armRec a := rfl
@[simp] theorem take_phase (s : State) (x : UItem) (a : Arm) : (s.take x).phase a = s.phase a := rfl

end Sys2Proof.Machine
end

