-- ==== Sys2Proof/Tests/Slice0.lean ====
section
/-! SUPPORT. Small tests: ill-formed commands that the check refuses, single steps, and for every statement
with hypotheses states and operands that meet them. -/

namespace Sys2Proof.Tests

set_option Elab.async false

open Sys2Proof.Machine

/-! ## Ill-formed commands, one for each check -/

/-- A controller's request head. -/
def ctl : ReqHead := { src := 0xF0, seq := 7 }

/-- A head whose source is a field node. -/
def fieldHead : ReqHead := { src := 0x10, seq := 7 }

/-- A VALVE ORDER from a controller to a field node. -/
def order (dst : Byte) : Frame := mkFrame dst 0xF0 0x20 1 [0, 5]

/-- A PERMIT REPORT from a field node to the engine. -/
def permitFrame : Frame := mkFrame 0xE0 0x30 0x13 1 [0x01]

theorem test_wf_relay_frame : (Instr.relayFrame (order 0x10)).wf = true := by decide +kernel
theorem test_wf_field_report : (Instr.fieldReport .d0 permitFrame).wf = true := by decide +kernel
theorem test_wf_request : (Instr.recordFetch ctl).wf = true := by decide

theorem test_illformed_payload_too_long :
    (Instr.relayFrame (mkFrame 0x10 0xF0 0x20 1 (List.replicate 57 0))).wf = false := by
  decide +kernel
theorem test_illformed_crc :
    (Instr.relayFrame { order 0x10 with crc := (order 0x10).crc + 1 }).wf = false := by
  decide +kernel
theorem test_illformed_destination_ff : (Instr.relayFrame (order 0xFF)).wf = false := by
  decide +kernel
theorem test_illformed_relay_source :
    (Instr.relayFrame (mkFrame 0x10 0x30 0x20 1 [0, 5])).wf = false := by decide +kernel
theorem test_illformed_relay_destination : (Instr.relayFrame (order 0xE3)).wf = false := by
  decide +kernel
theorem test_illformed_report_source :
    (Instr.fieldReport .d0 (mkFrame 0xE0 0xF0 0x13 1 [1])).wf = false := by decide +kernel
theorem test_illformed_report_destination :
    (Instr.fieldReport .d0 (mkFrame 0xF0 0x30 0x13 1 [1])).wf = false := by decide +kernel
theorem test_illformed_request_source : (Instr.recordFetch fieldHead).wf = false := by decide
theorem test_illformed_bad_request_source : (Instr.badRequestAnswer fieldHead 0x70).wf = false := by
  decide
theorem test_illformed_station :
    (Instr.valveReport { arm := 0, stream := .gasoline, station := 0xE0, ackSeq := 0, flow := 0,
                         closed := true, fault := false }).wf = false := by decide
theorem test_illformed_tracked_station :
    (Instr.laneStopValveReport { arm := 0, stream := .gasoline, station := 0x00, ackSeq := 0,
                                 flow := 0, closed := true, fault := false }).wf = false := by decide
theorem test_illformed_head :
    (Instr.strokeReport { channel := 0, source := 0xF0, seq := 0, confirmed := true }).wf = false := by
  decide
theorem test_illformed_tracking_position : (Instr.retryTimerExpiry 16).wf = false := by decide

/-! ## Small states -/

/-- An arm that may run without a permit. -/
def armRunnable : ArmRec := { enabled := true, priority := 0, permitRequired := false, policy := .yield }

/-- A recipe of gasoline alone (ratio 0) or with ethanol. -/
def recipe (ratio : Nat) : Recipe :=
  { valid := true, ratio := ratio, startFlow := 300, bulkFlow := 2000, topFlow := 200,
    startVolume := 100, taperVolume := 500, closeAhead := 50, trimBand := 100, trimStep := 1,
    trimLimit := 10, devLimit := 5, devCount := 3, lines := [] }

def batch (ratio : Nat) : Batch :=
  { id := 9, recipeNo := 0, snapshot := recipe ratio, preset := 1000 }

/-- The context of an arm in a state, with a batch. -/
def ctx (ratio : Nat) (p : ArmPhase) : ArmCtx :=
  { ArmCtx.idle with state := p, batch := some (batch ratio), reservedSlot := isActive p }

/-- The block in RUN with arm 0 enabled and recipe 0 filled, arm 0 idle. -/
def running : State :=
  let s := State.reset
  let m : MgmtState := { s.mgmt with mode := .run }
  let a : ArmState := { s.arms with table := put s.arms.table 0 armRunnable
                                    recipes := put s.arms.recipes 0 (recipe 0) }
  { s with mgmt := m, arms := a }

/-- The same with arm 0 in a state, its slot reserved. -/
def inPhase (ratio : Nat) (p : ArmPhase) : State :=
  let s := running.setCtx 0 (ctx ratio p)
  let r : RepState := { s.rep with reserved := if isActive p then 1 else 0 }
  let h : HeaderState := { s.header with queue := if p = .waiting then [0] else [] }
  { s with rep := r, header := h }

/-- A request waits at Port U with nothing before it. -/
def asks (r : Request) (s : State) : State :=
  let u : PortU := { s.portU with waiting := [.request ctl r] }
  { s with portU := u }

theorem next_asks (r : Request) (s : State) : NextRequest (asks r s) ctl r := by
  cases r <;> rfl

/-- A node map entry at an address. -/
def withNode (i : Fin 223) (e : NodeEntry) (s : State) : State :=
  let r : RelayState := { s.relay with nodeMap := put s.relay.nodeMap i e }
  { s with relay := r }

/-- A valid entry with a role; node address 1 is element 0. -/
def entry (role : Role) : NodeEntry := { NodeEntry.initial with valid := true, role := role }

/-- What a command answers holds of a next state. -/
def nextIs (o : Host.Outcome State Fault Refusal) (p : State → Bool) : Bool :=
  match o with
  | .next t => p t
  | _ => false

/-! ## Invariants: a state that has each law and steps -/

/-- Reset with a command in front. -/
def ticking : State := { State.reset with pending := [.engineSecondsTick] }

theorem test_laws_met : OutputsOk ticking ∧ StoreOk ticking ∧ QueueOk ticking ∧ GrantsOk ticking := by
  unfold OutputsOk StoreOk QueueOk GrantsOk ctxOk grantOk
  decide +kernel

theorem test_port_laws_met : PortsOk ticking := by
  unfold PortsOk countersOk
  exact ⟨by decide, ⟨trivial, trivial, trivial⟩, by decide⟩

theorem test_channel_laws_met : ChannelsOk ticking ∧ ValvesOk ticking := by
  constructor
  · intro c; unfold runOk; revert c; decide +kernel
  · intro a st; cases st <;> (revert a; decide +kernel)

theorem test_laws_step : ∃ t, step ticking = .next t := ⟨_, rfl⟩

/-- No entry of the node map is valid at reset (R18). -/
theorem reset_nodes (n : Byte) : nodeAt State.reset n = NodeEntry.initial := by
  unfold nodeAt State.reset sel
  split
  · simp only [Vector.getElem_replicate]
  · rfl

theorem test_idle_step : step State.reset = .next State.reset := rfl

/-! ## Port U -/

/-- Port U with waiting items and a number of frames in its queue. -/
def atPortU (waiting : List UItem) (n : Nat) : State :=
  let s := State.reset
  let u : PortU := { s.portU with waiting := waiting, queue := List.replicate n permitFrame }
  { s with portU := u }

def relay1 : UItem := .relay (order 0x10)
def relay2 : UItem := .relay (order 0x11)

theorem test_turn_behind_met : relay2 ∈ (atPortU [relay1, relay2] 0).portU.waiting ∧
    ¬ IsNext (atPortU [relay1, relay2] 0) relay2 := by unfold IsNext; decide +kernel

theorem test_turn_full_met : relay2 ∉ (atPortU [relay1] 23).portU.waiting ∧
    Config.queueUSize ≤ (atPortU [relay1] 23).portU.queue.length +
      (atPortU [relay1] 23).portU.waiting.length := by decide +kernel

theorem test_turn_joins_met : relay2 ∉ (atPortU [relay1] 22).portU.waiting ∧
    (atPortU [relay1] 22).portU.queue.length + (atPortU [relay1] 22).portU.waiting.length <
      Config.queueUSize ∧ aheadOf relay2 (atPortU [relay1] 22).portU.waiting ≠ [] := by
  decide +kernel

theorem test_turn_now_met : relay2 ∉ (atPortU [] 23).portU.waiting ∧
    (atPortU [] 23).portU.queue.length + (atPortU [] 23).portU.waiting.length < Config.queueUSize ∧
    aheadOf relay2 (atPortU [] 23).portU.waiting = [] := by decide +kernel

/-- A relay frame that waits behind a request waits for no request. -/
theorem test_relay_is_next : IsNext (atPortU [.request ctl .recordFetch, relay1] 0) relay1 := by
  unfold IsNext; decide +kernel

theorem test_bad_request_met :
    readRequest permitFrame.kind permitFrame.payload = none ∧
      NextRequest (asks (.bad 0x13) State.reset) ctl (.bad 0x13) :=
  ⟨by decide +kernel, next_asks _ _⟩

theorem test_request_read : readRequest 0x8B [0x03] = some (.laneStop 0x03) := by decide +kernel

/-! ## Units -/

/-- The octets of a unit whose CRC is right, from its body. -/
def closed (body : List Byte) : List Byte := body ++ o16 (crc body)

/-- A length octet that disagrees, destination 0xFF, and a frame of 63 octets. -/
def shortUnit : List Byte := closed [0x10, 0xF0, 0x20, 1, 1]
def nobodyUnit : List Byte := closed [0xFF, 0xF0, 0x20, 1, 0]
def longUnit : List Byte := closed ([0x10, 0xF0, 0x20, 1, 56] ++ List.replicate 56 0)

theorem test_unit_sizes_met : ([0, 0, 0, 0, 0, 0] : List Byte).length < 7 ∧
    63 < (List.replicate 64 (0 : Byte)).length := by decide

theorem test_unit_crc_met : let os : List Byte := List.replicate 7 0
    7 ≤ os.length ∧ os.length ≤ 63 ∧ crc (os.take (os.length - 2)) ≠ u16 os (os.length - 2) := by
  decide +kernel

theorem test_unit_length_met : let os := shortUnit
    7 ≤ os.length ∧ os.length ≤ 63 ∧ crc (os.take (os.length - 2)) = u16 os (os.length - 2) ∧
      ¬ ((octet os 4).toNat ≤ 56 ∧ os.length = 7 + (octet os 4).toNat) := by decide +kernel

theorem test_unit_nobody_met : let os := nobodyUnit
    7 ≤ os.length ∧ os.length ≤ 63 ∧ crc (os.take (os.length - 2)) = u16 os (os.length - 2) ∧
      (octet os 4).toNat ≤ 56 ∧ os.length = 7 + (octet os 4).toNat ∧ octet os 0 = 0xFF := by
  decide +kernel

theorem crc_of_closed (body : List Byte) :
    crc ((closed body).take body.length) = u16 (closed body) body.length := by
  have h : ∀ w : Word16, w.extractLsb' 8 8 ++ w.extractLsb' 0 8 = w := by
    intro w
    apply BitVec.eq_of_getLsbD_eq
    intro i hi
    rw [BitVec.getLsbD_append, BitVec.getLsbD_extractLsb', BitVec.getLsbD_extractLsb']
    by_cases h8 : i < 8
    · simp [h8]
    · have e : 8 + (i - 8) = i := by omega
      have e' : i - 8 < 8 := by omega
      simp [h8, e, e']
  simp [closed, u16, octet, o16, h]

theorem test_unit_passes_met : let os := longUnit
    7 ≤ os.length ∧ os.length ≤ 63 ∧ crc (os.take (os.length - 2)) = u16 os (os.length - 2) ∧
      (octet os 4).toNat ≤ 56 ∧ os.length = 7 + (octet os 4).toNat ∧ octet os 0 ≠ 0xFF ∧
      framerOf State.reset .u = .waiting :=
  ⟨by decide, by decide, (by
    have h := crc_of_closed ([0x10, 0xF0, 0x20, 1, 56] ++ List.replicate 56 0)
    exact h), by decide, by decide, by decide, rfl⟩

/-- Each path of a received frame is taken by some frame: sources at the edges of their class. -/
theorem test_paths_met : State.reset.portU.framer = .waiting ∧
    receivedFrame (mkFrame 0xE0 0xEF 0x87 1 []) = true ∧
    receivedFrame (mkFrame 0xE0 0xF0 0x87 1 []) = true ∧
    receivedFrame (mkFrame 0xDF 0xFE 0x20 1 [0, 1]) = true ∧
    receivedFrame (mkFrame 0xE7 0xF0 0x87 1 []) = true ∧
    receivedFrame (mkFrame 0xFE 0xF0 0x87 1 []) = true ∧
    receivedFrame (mkFrame 0xE0 0xDF 0x13 1 [1]) = true ∧
    receivedFrame (mkFrame 0xF0 0x01 0x13 1 [1]) = true ∧
    receivedFrame (mkFrame 0x01 0x01 0x13 1 [1]) = true ∧
    (State.reset.portD .d0).framer = .waiting ∧ State.reset.mgmt.ownAddr = 0xE0 := by decide +kernel

theorem test_copy_limits_met :
    (atPortU [] 19).portU.queue.length + (atPortU [] 19).portU.waiting.length < 20 ∧
      20 ≤ (atPortU [] 20).portU.queue.length + (atPortU [] 20).portU.waiting.length := by decide +kernel


/-! ## D ports -/

/-- A normal queue of n frames of an owner, its head in transmission or not. -/
def atPortD (n : Nat) (owner : Owner) (begun : Bool) (s : State) : State :=
  s.setPortD .d0 { s.d0 with
    urgent := [], normal := List.replicate n { frame := order 0x10, owner := owner },
    sending := if begun then some { urgent := false, octets := [0x7E] } else none }

/-- The power-on broadcast is in transmission. -/
def sendingStop : State :=
  State.reset.setPortD .d0 { State.reset.d0 with sending := some { urgent := true, octets := [0x7E] } }

/-- A frame of Port U is in transmission. -/
def sendingUp : State :=
  let s := atPortU [] 1
  let u : PortU := { s.portU with sending := some [0x7E] }
  { s with portU := u }

theorem test_transmission_met :
    ((State.reset.portD .d0).sending = none ∧ (State.reset.portD .d0).urgent = [.broadcast 0 0xFF]) ∧
    (let x := (atPortD 1 .relayed false State.reset).portD .d0
     x.sending = none ∧ x.urgent = [] ∧ x.normal = [{ frame := order 0x10, owner := .relayed }]) ∧
    (let x := (atPortD 0 .relayed false State.reset).portD .d0
     x.urgent = [] ∧ x.normal = []) ∧
    (sendingStop.portD .d0).sending = some { urgent := true, octets := [0x7E] } ∧
    (atPortU [] 1).portU.sending = none ∧ (atPortU [] 1).portU.queue = [permitFrame] ∧
    sendingUp.portU.sending = some [0x7E] ∧ State.reset.portU.queue = [] := by decide +kernel

/-- A valve channel and an injector channel with an order in flight, whose frame is at the head. -/
def valveFlight : ValveFlight := { seq := 1, demand := 5, departed := false, timer := none }
def strokeFlight : StrokeFlight :=
  { outlet := false, seq := 1, flowAtOrder := 300, charge := .owed, departed := false, timer := none }

def valveOrdered : State :=
  (atPortD 1 (.valveOrder 0 .gasoline) true State.reset).setChan 0 .gasoline
    { ValveChan.initial with inFlight := some valveFlight, nextSeq := 2 }

def strokeOrdered : State :=
  (atPortD 16 (.strokeOrder 0) true State.reset).setInjRun 0
    { InjRun.initial with state := .stroking, owed0 := 1, inFlight := some strokeFlight, nextSeq := 2 }

theorem test_departure_met :
    (valveOrdered.portD .d0).sending = some { urgent := false, octets := [0x7E] } ∧
    (valveOrdered.portD .d0).normal = [{ frame := order 0x10, owner := .valveOrder 0 .gasoline }] ∧
    (valveOrdered.chan 0 .gasoline).inFlight = some valveFlight ∧
    (valveOrdered.chan 0 .gasoline).pendingSlot = none ∧ valveFlight.seq = (order 0x10).seq ∧
    (strokeOrdered.portD .d0).normal =
      { frame := order 0x10, owner := .strokeOrder 0 } ::
        List.replicate 15 { frame := order 0x10, owner := .strokeOrder 0 } ∧
    (strokeOrdered.injRun 0).inFlight = some strokeFlight ∧
    (strokeOrdered.injRun 0).strokeReady = none ∧ strokeFlight.seq = (order 0x10).seq := by
  decide +kernel

/-- An order withdrawn while its frame is on the line finds no order in flight. -/
theorem test_departure_unanswered_met :
    ((atPortD 1 (.valveOrder 0 .gasoline) true State.reset).chan 0 .gasoline).inFlight = none ∧
    ((atPortD 1 (.strokeOrder 0) true State.reset).injRun 0).inFlight = none := by decide +kernel

/-! ## Relay Unit -/

/-- Node 0x10 is the gasoline valve of arm 0 on port D0; arm 0 is active. -/
def valveNode (p : ArmPhase) : State := withNode 15 (entry .valveGasoline) (inPhase 0 p)

/-- A frame waits to be relayed. -/
def relays (f : Frame) (s : State) : State :=
  let u : PortU := { s.portU with waiting := [.relay f] }
  { s with portU := u }

theorem next_relays (f : Frame) (s : State) : IsNext (relays f s) (.relay f) := rfl

theorem test_relay_refused_met : IsNext (relays (order 0x10) (valveNode .ready)) (.relay (order 0x10)) ∧
    (order 0x10).kind ≠ 0x22 ∧ (order 0x10).kind ≠ 0x23 ∧
    ownershipRefuses (relays (order 0x10) (valveNode .ready)) (order 0x10) = true := by
  refine ⟨rfl, ?_⟩
  decide +kernel

/-- With the arm idle the frame goes to D0: room for it at 15 frames, none at 16. -/
theorem test_relay_routed_met :
    (∀ n : Fin 2, let s := relays (order 0x10) (atPortD (15 + n.val) .relayed false (valveNode .idle))
      ownershipRefuses s (order 0x10) = false ∧ filtersRefuse s (order 0x10) = false ∧
      (nodeAt s (order 0x10).dst).valid = true ∧ (nodeAt s (order 0x10).dst).port = .d0 ∧
      (decide ((s.portD .d0).normal.length < 16) = decide (n.val = 0))) := by decide +kernel

/-- A terminal stop and a frame for all nodes have no entry and need both ports. -/
theorem test_relay_both_met :
    (∀ n : Fin 2, let f := mkFrame 0x00 0xF0 0x23 1 [1]
      let s := relays f (atPortD (15 + n.val) .relayed false (valveNode .ready))
      (nodeAt s 0x00).valid = false ∧ (s.portD .d1).normal.length < 16 ∧
      (decide ((s.portD .d0).normal.length < 16) = decide (n.val = 0))) := by decide +kernel

/-- A filter that blocks every frame of class 0, at place 7 behind seven that are off. -/
def blocking : State :=
  let s := State.reset
  let x : Filter := { enabled := true, address := 0, mask := 0, kinds := 0xFF, action := .block }
  let r : RelayState := { s.relay with filters := put s.relay.filters 7 x }
  { s with relay := r }

theorem test_filter_blocks : filtersRefuse blocking (order 0x10) = true ∧
    filtersRefuse State.reset (order 0x10) = false := by decide +kernel

/-- A report waits at D0, its source with an entry or without. -/
def reporting (f : Frame) (s : State) : State :=
  s.setPortD .d0 { s.d0 with reports := [f] }

/-- Reports of each kind from node 0x10, of the shape its role has. -/
def reportOf (kind : Byte) (n : Nat) : Frame := mkFrame 0xE0 0x10 kind 1 (List.replicate n 1)

theorem test_report_unmapped_met :
    (nodeAt (reporting permitFrame State.reset) permitFrame.src).valid = false ∧
    ((reporting permitFrame State.reset).portD .d0).reports = [permitFrame] ∧
    State.reset.mgmt.settings.passUnknown = false := by decide +kernel

/-- The Engine Settings pass on what comes from unknown sources. -/
def passing : State :=
  let s := State.reset
  let x : Settings := { Settings.initial with passUnknown := true }
  let m : MgmtState := { s.mgmt with settings := x }
  { s with mgmt := m }

theorem test_report_unmapped_passed_met :
    (nodeAt (reporting permitFrame passing) permitFrame.src).valid = false ∧
    (reporting permitFrame passing).mgmt.settings.passUnknown = true := by decide +kernel

theorem test_report_misfit_met : let s := reporting (reportOf 0x13 1) (valveNode .idle)
    (nodeAt s 0x10).valid = true ∧ reportShape (nodeAt s 0x10).role ≠ some (0x13, 1) := by
  decide +kernel

theorem test_reports_fit_met :
    (∀ p : Role × Byte × Nat, p ∈ [(.meterGasoline, 0x10, 6), (.meterEthanol, 0x10, 6),
        (.valveGasoline, 0x11, 4), (.valveEthanol, 0x11, 4), (.injector, 0x12, 2), (.permit, 0x13, 1)] →
      let s := withNode 15 (entry p.1) (reporting (reportOf p.2.1 p.2.2) State.reset)
      (nodeAt s 0x10).valid = true ∧ (nodeAt s 0x10).role = p.1 ∧
        reportShape p.1 = some ((reportOf p.2.1 p.2.2).kind, (reportOf p.2.1 p.2.2).payload.length)) := by
  decide +kernel


/-! ## Tables -/

theorem test_index_ranges : ∀ i : Byte,
    (IndexFits .nodeMap i ↔ i ≠ 0 ∧ i.toNat ≤ 0xDF) ∧ (IndexFits .relayFilter i ↔ i.toNat < 8) ∧
    (IndexFits .meter i ↔ i.toNat < 16) ∧ (IndexFits .injector i ↔ i.toNat < 12) ∧
    (IndexFits .recipe i ↔ i.toNat < 32) ∧ (IndexFits .arm i ↔ i.toNat < 8) ∧
    (IndexFits .settings i ↔ i.toNat = 0) ∧ (IndexFits .header i ↔ i.toNat = 0) := by
  unfold IndexFits; decide +kernel

theorem test_table_read : nextIs (exec (.tableRead ctl .arm 7) (asks (.tableRead .arm 7) State.reset))
    (fun t => decide (t.portU.queue =
      [mkFrame 0xF0 0xE0 0xC1 7 [0x06, 0x07, 0x00, 0x00, 0x01, 0x00]])) = true := by decide +kernel

def rawNode (role arm : Byte) : RawNode :=
  { valid := 1, role := role, arm := arm, slot := 15, channel := 11, port := 1, copyUp := 1 }

def rawFilter (action : Byte) : RawFilter :=
  { enabled := 1, address := 0xDF, mask := 0xFF, kinds := 0xFF, action := action }

def rawBands (n : Nat) : Vector RawBand 5 :=
  #v[⟨1, 90000⟩, ⟨2, 110000⟩, ⟨3, 90000⟩, ⟨4, 90000⟩, ⟨BitVec.ofNat 16 n, 110000⟩]

def rawMeter (last : Nat) : RawMeter :=
  { valid := 1, k := 9999999, format := 2, bandCount := 5, surge := 1, silence := 10000,
    bands := rawBands last }

def rawInjector (pace : Byte) : RawInjector :=
  { valid := 1, node := 0xDF, code := 255, stroke := 5000, out0 := 0xFF, out1 := 0xFF, policy := 1,
    pace := pace, timeLimit := 5000, check := 6000 }

def rawRecipe (ahead : Word32) : RawRecipe :=
  { valid := 1, ratio := 900, startFlow := 1, bulkFlow := 1, topFlow := 1, startVolume := 0,
    taperVolume := 10000000, closeAhead := ahead, trimBand := 1, trimStep := 100, trimLimit := 0,
    devLimit := 1, devCount := 15, lineCount := 1,
    lines := #v[⟨255, 9999, 1⟩, ⟨0, 0, 0⟩, ⟨0, 0, 0⟩, ⟨0, 0, 0⟩] }

def rawSettings (controller : Byte) : RawSettings :=
  { controller := controller, passUnknown := 1, pinLevel := 3, response := 50, closeLimit := 60000,
    permit := 10000, retry := 100 }

def rawArm (priority : Byte) : RawArm := { enabled := 1, priority := priority, permit := 1, policy := 1 }

def rawHeader (capacity : Byte) (size : Word16) : RawHeader :=
  { capacity := capacity, size := size, policy := 0, waitLimit := 600000, spacing := 10000 }

theorem test_node_fields_met : NodeFits (rawNode 6 7) ∧ ¬ NodeFits (rawNode 7 7) ∧
    ¬ NodeFits (rawNode 6 8) := by unfold NodeFits; decide

theorem test_meter_fields_met : MeterFits (rawMeter 6000) := by
  unfold MeterFits Within
  exact ⟨by decide, by decide, fun _ => by decide +kernel⟩

theorem test_meter_fields_not_met : ¬ MeterFits (rawMeter 6001) ∧ ¬ MeterFits (rawMeter 4) :=
  ⟨fun h => absurd ((h.2.2 rfl).2.2.2.1 ⟨6001, 110000⟩ (by decide)).1.2 (by decide),
    fun h => absurd (h.2.2 rfl).2.2.2.2.1 (by decide +kernel)⟩

theorem test_injector_fields_met : ∀ n : Fin 2,
    InjectorFits (rawInjector (if n = 0 then 15 else 2)) := by
  unfold InjectorFits FieldFits Within
  decide +kernel

theorem test_injector_fields_not_met : ¬ InjectorFits (rawInjector 1) := by
  rintro ⟨-, -, -, -, -, -, -, -, h, -⟩
  exact absurd h (by unfold FieldFits Within; decide)

theorem test_recipe_fields_met : RecipeFits (rawRecipe 9999999) := by
  unfold RecipeFits Within
  exact ⟨by decide, by decide, fun _ => by decide +kernel⟩

theorem test_recipe_fields_not_met : ¬ RecipeFits (rawRecipe 10000000) :=
  fun h => absurd (h.2.2 rfl).2.2.2.2.2.2.1 (by decide)

theorem test_settings_fields_met : SettingsFit (rawSettings 0xFE) ∧
    ¬ SettingsFit (rawSettings 0xEF) ∧ ¬ SettingsFit (rawSettings 0xFF) := by
  unfold SettingsFit Within; decide +kernel

theorem test_header_fields_met : HeaderFits (rawHeader 64 500) ∧ ¬ HeaderFits (rawHeader 65 500) ∧
    ¬ HeaderFits (rawHeader 64 501) := by unfold HeaderFits Within; decide +kernel

/-- The records these octets spell are read. -/
theorem test_records_read : (nodeOf (rawNode 6 7)).isSome = true ∧
    (filterOf (rawFilter 2)).isSome = true ∧ (meterOf (rawMeter 6000)).isSome = true ∧
    (injectorOf (rawInjector 15)).isSome = true ∧ (recipeOf (rawRecipe 9999999)).isSome = true ∧
    (armRecOf (rawArm 3)).isSome = true ∧ (settingsOf (rawSettings 0xF0)).isSome = true ∧
    (headerOf (rawHeader 64 500)).isSome = true := by decide +kernel

/-- The record that a valid NODE MAP write of valve or permit role makes. -/
def valveEntry : NodeEntry := { entry .valveGasoline with slot := 15, channel := 11, port := .d1, copyUp := true }

/-- A write of node 0x20 clashes with the valve that node 0x10 is already. -/
theorem test_node_conflict_met : Conflicts (valveNode .idle) 0x20 valveEntry :=
  ⟨rfl, 0x10, ⟨by decide, by decide⟩, by decide, by decide +kernel,
    Or.inl ⟨Or.inr (Or.inr (Or.inl rfl)), by decide +kernel, by decide +kernel⟩⟩

/-- The same write at node 0x10, or at any node of reset, clashes with none. -/
theorem test_node_no_conflict_met : ¬ Conflicts State.reset 0x20 valveEntry := by
  rintro ⟨-, n, -, -, h, -⟩
  rw [reset_nodes] at h
  exact absurd h (by decide)

theorem test_node_rebinds_met : Rebinds (nodeAt State.reset 0x20) valveEntry :=
  Or.inl (by decide +kernel)

theorem test_node_in_use_met : Involves (valveNode .ready) 0x10 (nodeAt (valveNode .ready) 0x10) :=
  ⟨by decide +kernel, Or.inl ⟨Or.inr (Or.inr (Or.inl (by decide +kernel))), by decide +kernel⟩⟩

theorem test_node_write_free_met :
    ¬ Involves State.reset 0x20 (nodeAt State.reset 0x20) ∧ ¬ Involves State.reset 0x20 valveEntry := by
  constructor
  · rintro ⟨h, -⟩
    exact absurd h (by decide +kernel)
  · rintro ⟨-, h⟩
    have hall : ∀ a, isActive (State.reset.phase a) = false := by decide +kernel
    rcases h with ⟨-, h⟩ | ⟨h, -⟩ | ⟨h, -⟩ | ⟨-, h⟩
    · simp [hall] at h
    · exact absurd h (by decide)
    · exact absurd h (by decide)
    · exact absurd h (by decide +kernel)

theorem test_node_same_binding_met : ¬ Rebinds (nodeAt State.reset 0x20) NodeEntry.initial := by
  unfold Rebinds isMeterRole namesArm; decide +kernel

/-- ARM writes meet an arm that is idle and one that is not. -/
theorem test_arm_write_met : armOf 7 = some 7 ∧ armOf 8 = none ∧ running.phase 7 = .idle ∧
    (inPhase 0 .ready).phase 0 ≠ .idle := by decide +kernel

/-- Slot 0 is used by an active arm through node 0x10, or by none. -/
def meterNode (p : ArmPhase) : State := withNode 15 (entry .meterGasoline) (inPhase 0 p)

theorem test_meter_slot_used_met :
    (nodeAt (meterNode .paused) 0x10).valid = true ∧ isMeterRole (nodeAt (meterNode .paused) 0x10).role ∧
    (nodeAt (meterNode .paused) 0x10).slot = 0 ∧
    isActive ((meterNode .paused).phase (nodeAt (meterNode .paused) 0x10).arm) = true := by unfold isMeterRole; decide +kernel

theorem test_injector_used_met : (strokeOrdered.injRun 0).inFlight ≠ none ∧
    (State.reset.injRun 11).inFlight = none ∧ (State.reset.injRun 11).owed0 = 0 ∧
    (State.reset.injRun 11).owed1 = 0 ∧ (State.reset.injRec 11).out0 = none ∧
    (State.reset.injRec 11).out1 = none := by decide +kernel

/-- Two shares granted to arm 0 of a capacity of two. -/
def granted (ratio : Nat) (p : ArmPhase) : State :=
  let s := (inPhase ratio p).setGrant 0
    { sReq := 2, sMin := 1, granted := 2, yieldPending := false, order := some 1 }
  let h : HeaderState := { s.header with effective := 2, grantCounter := 1 }
  { s with header := h }

theorem test_header_write_met : grantedSum (granted 100 .filling) = 2 ∧
    grantedSum (granted 100 .filling) ≤ (rawHeader 2 10).capacity.toNat ∧
    (rawHeader 1 10).capacity.toNat < grantedSum (granted 100 .filling) ∧
    (granted 100 .filling).mgmt.mode = .run ∧ (granted 100 .filling).header.record.shareSize = 10 ∧
    State.reset.mgmt.mode = .standby := by decide +kernel

theorem test_header_read : (headerOf (rawHeader 1 10)).map (fun x => x.shareSize) = some 10 ∧
    (headerOf { rawHeader 1 10 with policy := 1 }).map (fun x => x.policy) =
      some (granted 100 .filling).header.record.policy := by decide +kernel


/-! ## Arm commands -/

def meterRecord : MeterRec :=
  { valid := true, k := 100000, format := 0, bands := [{ bound := 6000, factor := 100000 }],
    surge := 500, silence := 1000 }

def injRecord : InjRec :=
  { valid := true, node := 0x12, code := 7, stroke := 100, out0 := some 0, out1 := some 1,
    policy := .fixed, pace := 4, timeLimit := 500, check := 300 }

/-- Arm 0 has its gasoline meter (slot 0) at node 0x10, its valve at 0x11 and the head of channel 0,
with outlets to arms 0 and 1, at 0x12. -/
def plant (s0 : State) : State :=
  let s := withNode 15 (entry .meterGasoline) (withNode 16 (entry .valveGasoline)
    (withNode 17 (entry .injector) s0))
  let m : MeterState := { s.meter with table := put s.meter.table 0 meterRecord }
  let j : InjState := { s.inj with
    table := put s.inj.table 0 injRecord
    run := put s.inj.run 0 { InjRun.initial with state := .available } }
  { s with meter := m, inj := j }

/-- Recipe 0 takes one additive line. -/
def withLine (code dose : Nat) (s : State) : State :=
  let r : Recipe := { recipe 0 with lines := [{ code := code, dose := dose, mandatory := 1 }] }
  let a : ArmState := { s.arms with recipes := put s.arms.recipes 0 r }
  { s with arms := a }

theorem test_arm_checks_met : State.reset.mgmt.mode ≠ .run ∧ running.mgmt.mode = .run ∧
    armOf 7 = some 7 ∧ (running.armRec 7).enabled = false ∧
    (running.armRec 0).enabled = true ∧ isIn .ready ((inPhase 0 .filling).ctxOf 0) = false := by
  decide +kernel

theorem arm0_ready (s : State) (hm : s.mgmt.mode = .run) (ha : (s.armRec 0).enabled = true) :
    ArmReady s 0 0 := ⟨hm, by decide, ha⟩

theorem test_arm_ready_met (r : Request) (p : ArmPhase) : ArmReady (asks r (inPhase 0 p)) 0 0 :=
  arm0_ready _ rfl rfl

/-- START and RESUME are held back by ESTOP_N, by a permit bit, by a tracked station. -/
def estopped (p : ArmPhase) : State :=
  let s := inPhase 0 p
  let x : StopState := { s.stop with estop := true }
  { s with stop := x }

def tracked (p : ArmPhase) : State :=
  let s := plant (inPhase 0 p)
  let x : StopState := { s.stop with tracking := [{ members := [0x11], retry := 0, timer := some 300 }] }
  { s with stop := x }

def permitless (p : ArmPhase) : State :=
  let s := inPhase 0 p
  let a : ArmState := { s.arms with table := put s.arms.table 0 { armRunnable with permitRequired := true } }
  { s with arms := a }

theorem test_not_permitted_met : (estopped .ready).phase 0 = .ready ∧ (estopped .ready).stop.estop = true ∧
    (permitless .paused).phase 0 = .paused ∧ ((permitless .paused).armRec 0).permitRequired = true ∧
    (permitless .paused).arms.permits.getLsbD 0 = false ∧
    (station (tracked .paused) 0 .gasoline).map (fun x => isTracked (tracked .paused) x.1) =
      some true := by decide +kernel

theorem test_authorize_values_met : recipeIndex 31 = some 31 ∧ recipeIndex 0 = some 0 ∧
    (sel running.arms.recipes 31).valid = false ∧ (sel running.arms.recipes 0).valid = true ∧
    31 < (32 : Byte).toNat ∧ running.phase 0 = .idle := by decide +kernel

theorem test_authorize_preset_met : ¬ Within 1000 10000000 (999 : Word32).toNat ∧
    Within 1000 10000000 (1000 : Word32).toNat ∧ Within 1000 10000000 (10000000 : Word32).toNat ∧
    (recipe 0).startVolume + (recipe 0).closeAhead ≤ 1000 := by unfold Within; decide

theorem test_authorize_bindings_met : bindingsHold running 0 0 = false ∧
    bindingsHold (plant running) 0 0 = true ∧ bindLines (plant running) 0 [] = some [] := by
  decide +kernel

/-- Stroke 100 and dose 2000 give the least interval, 500; dose 2001 gives 499. -/
theorem test_authorize_lines_met :
    bindLines (plant running) 0 [{ code := 8, dose := 100, mandatory := 0 }] = none ∧
    bindLines (plant running) 0 [{ code := 7, dose := 2000, mandatory := 0 }] =
      some [{ channel := 0, outlet := false, vs := 500, due := 0, delivered := 0, dropped := 0 }] ∧
    (bindLines (plant running) 0 [{ code := 7, dose := 2001, mandatory := 0 }]).map
      (fun xs => xs.map (fun l => l.vs)) = some [499] := by decide +kernel

def record : BatchRecord :=
  { id := 9, arm := 0, recipeNo := 0, reason := .complete, additiveShort := false,
    flowAfterClose := false, deviationSeen := false, preset := 1000, g := 1000, e := 0, maxDev := 0,
    startTime := some 1, endTime := 2, lines := [] }

/-- The Record Store holds n records. -/
def stored (n : Nat) (s : State) : State :=
  let r : RepState := { s.rep with records := List.replicate n record }
  { s with rep := r }

theorem test_authorize_store_met : idInUse (stored 1 running) 9 = true ∧
    idInUse (stored 32 running) 8 = false ∧ 32 ≤ (stored 32 running).rep.records.length ∧
    (stored 31 running).rep.records.length + (stored 31 running).rep.reserved < 32 := by
  decide +kernel

theorem test_authorize_opens :
    nextIs (exec (.authorize ctl 0 9 0 1000) (asks (.authorize 0 9 0 1000) (withLine 7 2000 (plant running))))
      (fun t => decide (t.phase 0 = .ready ∧ (t.ctxOf 0).reservedSlot = true ∧ t.rep.reserved = 1 ∧
        (t.ctxOf 0).lines.length = 1)) = true := by decide +kernel

theorem test_withdrawal_met :
    withdrawnBy (valveNode .idle) 0 { frame := order 0x10, owner := .relayed } = true ∧
    ((atPortD 2 .relayed true (valveNode .idle)).portD .d0).normal =
      { frame := order 0x10, owner := .relayed } ::
        [{ frame := order 0x10, owner := .relayed }] ∧
    ((atPortD 0 .relayed false (valveNode .idle)).portD .d0).normal = [] := by decide +kernel

theorem test_start_met :
    (inPhase 100 .ready).phase 0 = .ready ∧ flowForbidden (inPhase 100 .ready) 0 = false ∧
    (ArmCtx.recipe ((inPhase 100 .ready).ctxOf 0)).ratio ≠ 0 ∧
    (inPhase 100 .paused).phase 0 = .paused ∧ flowForbidden (inPhase 100 .paused) 0 = false ∧
    (inPhase 100 .ready).header.record.policy = .arrival ∧
    (inPhase 100 .ready).header.spacing = none := by decide +kernel

/-- Under the policy PRIORITY the queue holds an arm of higher priority. -/
def queued : State :=
  let s := (inPhase 100 .ready).setCtx 1 (ctx 100 .waiting)
  let a : ArmState := { s.arms with table := put s.arms.table 1 { armRunnable with priority := 3 } }
  let h : HeaderState := { s.header with
    record := { s.header.record with policy := .priority }, queue := [1] }
  { s with arms := a, header := h }

theorem test_start_priority_met : queued.header.record.policy = .priority ∧
    queued.header.queue = [1] ∧ (queued.armRec 0).priority ≤ (queued.armRec 1).priority ∧
    queued.phase 0 = .ready ∧ flowForbidden queued 0 = false := by decide +kernel

theorem test_start_without_ethanol_met : ∀ p : ArmPhase, p = .ready ∨ p = .paused →
    let s := inPhase 0 p
    flowForbidden s 0 = false ∧ (ArmCtx.recipe (s.ctxOf 0)).ratio = 0 ∧
    (ArmCtx.recipe (s.ctxOf 0)).closeAhead < ArmCtx.remaining (s.ctxOf 0) ∧
    0 < (ArmCtx.recipe (s.ctxOf 0)).startVolume ∧ mandatoryIsolated s 0 = false := by
  rintro p (rfl | rfl) <;> decide +kernel

theorem test_start_flows :
    nextIs (exec (.start ctl 0) (asks (.start 0) (plant (inPhase 0 .ready))))
      (fun t => decide (t.phase 0 = .starting ∧ (t.ctxOf 0).gasDemand = 300 ∧
        (t.chan 0 .gasoline).lastSent = some 300 ∧ t.d0.normal.length = 1)) = true := by
  decide +kernel

/-- An arm in CLOSING with a reason. -/
def closingFor (why : CloseReason) : State :=
  let s := inPhase 0 .closing
  let c : ArmCtx := { ctx 0 .closing with closeReason := some why }
  (s.setCtx 0 c).setClose 0 { timer := some 8000, gasSettled := false, ethSettled := false }

theorem test_pause_stop_met :
    ((inPhase 0 .waiting).ctxOf 0).state = .waiting ∧
    (∀ p : ArmPhase, p ∈ [.starting, .filling, .topping] →
      isFlowing ((inPhase 0 p).ctxOf 0).state = true ∧ valveCondition (inPhase 0 p) 0 = false) ∧
    ((closingFor .theEnd).ctxOf 0).state = .closing ∧
    ((closingFor .theEnd).ctxOf 0).closeReason = some .theEnd ∧
    ((closingFor .pause).ctxOf 0).closeReason = some .pause ∧
    ((inPhase 0 .paused).ctxOf 0).state = .paused ∧ ((inPhase 0 .halted).ctxOf 0).state = .halted ∧
    ((inPhase 0 .halted).ctxOf 0).batch = some (batch 0) := by decide +kernel

theorem test_pause_closes : nextIs (exec (.pause ctl 0) (asks (.pause 0) (inPhase 0 .filling)))
    (fun t => decide (t.phase 0 = .closing ∧ (t.ctxOf 0).closeReason = some .pause)) = true := by
  decide +kernel

/-- A HALTED arm whose fault code's condition holds. -/
def haltedByEstop : State :=
  (estopped .halted).setCtx 0 { ctx 0 .halted with faultCode := some .estop }

theorem test_fault_reset_met : haltedByEstop.phase 0 = .halted ∧
    (haltedByEstop.ctxOf 0).faultCode = some .estop ∧ standing haltedByEstop .estop (.arm 0) = true ∧
    (inPhase 0 .halted).phase 0 = .halted ∧ ((inPhase 0 .halted).ctxOf 0).faultCode = none ∧
    (∀ st, station (inPhase 0 .halted) 0 st = none) ∧
    (station (tracked .halted) 0 .gasoline).isSome = true := by
  refine ⟨by decide +kernel, by decide +kernel, by decide +kernel, by decide +kernel,
    by decide +kernel, ?_, by decide +kernel⟩
  intro st; cases st <;> decide +kernel

theorem test_fault_reset_pauses :
    nextIs (exec (.faultReset ctl 0) (asks (.faultReset 0) (inPhase 0 .halted)))
      (fun t => decide (t.phase 0 = .paused)) = true := by decide +kernel

/-- A DONE arm with a stroke still in flight for its outlet, charged DROPPED. -/
def doneStroking : State :=
  (plant (inPhase 0 .done)).setInjRun 0
    { InjRun.initial with state := .stroking, inFlight := some { strokeFlight with charge := .dropped } }

theorem test_release_met : doneStroking.phase 0 = .done ∧
    (doneStroking.injRun 0).inFlight = some { strokeFlight with charge := .dropped } ∧
    (doneStroking.injRec 0).outletArm strokeFlight.outlet = some 0 := by decide +kernel

theorem test_arm_frame_met : ∃ t, exec (commandOf (.request ctl (.cancel 0)))
    (asks (.cancel 0) (inPhase 0 .ready)) = .next t := ⟨_, rfl⟩


/-! ## Status, alerts, records, mode, restart, stops -/

/-- Operands at the edges of ARM STATUS and ENGINE STATUS. -/
theorem test_status_operands_met : 7 < (8 : Byte).toNat ∧ armOf 7 = some 7 ∧ 2 < (3 : Byte).toNat ∧
    1 < (2 : Byte).toNat ∧ (1 : Byte) ≠ 0 ∧ NextRequest (asks (.engineStatus 1 1) State.reset) ctl
      (.engineStatus 1 1) := by
  refine ⟨by decide, by decide, by decide, by decide, by decide, next_asks _ _⟩

theorem test_engine_status_clears :
    nextIs (exec (.engineStatus ctl 1 1) (asks (.engineStatus 1 1) (countDropped State.reset)))
      (fun t => decide (t.portU.requestsDropped = 0 ∧
        (t.portU.queue.map (fun f => f.payload.length)) = [33])) = true := by decide +kernel

theorem test_alert_ack : nextIs (exec (.alertAck ctl 1) (asks (.alertAck 1) State.reset))
    (fun t => decide (t.rep.alerts = [])) = true := by decide +kernel

theorem test_record_requests_met : State.reset.rep.records = [] ∧
    (stored 1 State.reset).rep.records = [record] ∧ record.id = 9 ∧ record.id ≠ 8 := by decide +kernel

theorem test_record_ack : nextIs (exec (.recordAck ctl 9) (asks (.recordAck 9) (stored 2 State.reset)))
    (fun t => decide (t.rep.records = [record])) = true := by decide +kernel

/-- A list of n entries of which none is of ESTOP. -/
def alerted (n : Nat) : State :=
  let s := State.reset
  let xs : List Alert := List.replicate n
    { kind := .flowAfterClose, subject := .arm 0, number := 1, acknowledged := true, present := true }
  let r : RepState := { s.rep with alerts := xs }
  { s with rep := r }

theorem test_raise_met :
    (∃ x ∈ State.reset.rep.alerts, x.kind = .powerUp ∧ x.subject = .nobody) ∧
    (¬ ∃ x ∈ (alerted 31).rep.alerts, x.kind = .estop ∧ x.subject = .nobody) ∧
    (alerted 31).rep.alerts.length < 32 ∧
    (¬ ∃ x ∈ (alerted 32).rep.alerts, x.kind = .estop ∧ x.subject = .nobody) ∧
    32 ≤ (alerted 32).rep.alerts.length := by decide +kernel

theorem test_raise_lost : (enterAlert .estop .nobody (alerted 32)).rep.lost = 1 := by decide +kernel

theorem test_mode_met : (inPhase 0 .paused).mgmt.mode = .run ∧
    isActive ((inPhase 0 .paused).phase 0) = true ∧
    (∀ a, isFlowing ((inPhase 0 .paused).phase a) = true → valveCondition (inPhase 0 .paused) a = false) ∧
    (∀ a, isActive (running.phase a) = false) ∧ State.reset.mgmt.mode = .standby := by decide +kernel

theorem test_mode_forced : nextIs (exec (.mode ctl 0 1) (asks (.mode 0 1) (inPhase 0 .paused)))
    (fun t => decide (t.mgmt.mode = .standby ∧ t.phase 0 = .done ∧ t.rep.records.length = 1)) = true := by
  decide +kernel

theorem test_restart_met : State.reset.mgmt.ownAddr = 0xE0 ∧ (0xE1 : Byte) ≠ State.reset.mgmt.ownAddr ∧
    NextRequest (asks (.restart 0xE0) (plant (inPhase 0 .filling))) ctl (.restart 0xE0) :=
  ⟨rfl, by decide, next_asks _ _⟩

theorem test_restart : nextIs (exec (.restart ctl 0xE0) (asks (.restart 0xE0) (plant (inPhase 0 .filling))))
    (fun t => decide (t.mgmt.mode = .standby ∧ t.phase 0 = .idle ∧ t.rep.records.length = 1 ∧
      t.stop.tracking.length = 1 ∧ t.rep.raiseCounter = 1)) = true := by decide +kernel

/-- Node 0x11 is the one station of arm 0; the other arms have none. -/
theorem test_lane_stop_met : (stopStations (plant running) 0x01).map Prod.fst = [0x11] ∧
    stopStations (plant running) 0xFE = [] := by decide +kernel

/-- The power-on broadcast is on the line. -/
def sendingPlant : State :=
  let s := plant running
  s.setPortD .d0 { s.d0 with sending := some { urgent := true, octets := [0x7E] } }

/-- The power-on broadcast that waits at D0 takes the arms of a lane stop. -/
theorem test_lane_stop_merges : (laneStop 0x01 (plant running)).d0.urgent = [.broadcast 0 0xFF] ∧
    (laneStop 0x01 sendingPlant).d0.urgent = [.broadcast 0 0xFF, .broadcast 2 0x01] := by
  decide +kernel

theorem test_lane_stop_request_met : (1 : Byte) ≠ 0 ∧ inSet 0x01 0 = true ∧
    (∀ a, inSet 0x01 a = true → isRunning ((inPhase 0 .filling).phase a) = true →
      valveCondition (inPhase 0 .filling) a = false) ∧
    isRunning ((inPhase 0 .filling).phase 0) = true ∧ isRunning ((inPhase 100 .waiting).phase 0) = true := by
  decide +kernel

theorem test_lane_stop_faults : nextIs (exec (.laneStop ctl 1) (asks (.laneStop 1) (inPhase 0 .filling)))
    (fun t => decide (t.ctxOf 0 = closedByFault (ctx 0 .filling) .laneStop)) = true := by decide +kernel

theorem test_estop_met : (inPhase 0 .filling).stop.estop = false ∧ (estopped .filling).stop.estop = true ∧
    (∀ a, isRunning ((inPhase 0 .filling).phase a) = true → valveCondition (inPhase 0 .filling) a = false) ∧
    (inPhase 0 .filling).rep.alerts.length < 32 := by decide +kernel

theorem test_estop : nextIs (exec .estopAsserted (inPhase 0 .filling))
    (fun t => decide (t.ctxOf 0 = closedByFault (ctx 0 .filling) .estop ∧ t.stop.estop = true ∧
      t.rep.alertOut = true)) = true := by decide +kernel


/-! ## Reports and expiries -/

def sample (seq : Byte) (count : Word24) : Sample :=
  { slot := 0, arm := 0, stream := .gasoline, seq := seq, count := count, interval := 1000,
    fault := false }

def sampleOrder : SampleOrder :=
  { phaseFirst := false, strokesFirst := false, faultsFirst := true, surgeFirst := true,
    headPlace := .first }

/-- A sample waits at slot 0, whose last sequence is given. -/
def metering (last : Option Byte) (m : Sample) (s0 : State) : State :=
  let s := (plant s0).setMeterRun 0 { MeterRun.cleared with lastSeq := last, lastCount := 65000 }
  let x : MeterState := { s.meter with samples := [m] }
  { s with meter := x }

/-- The meter of slot 0, bound to arm 0, has fallen silent. -/
def silenced (p : ArmPhase) (m : Sample) : State :=
  let s := metering (some 4) m (inPhase 0 p)
  s.setMeterRun 0 { s.meterRun 0 with silent := true }

/-- The sample that ends a silence restarts the timer by the state of the slot's arm, whichever arm the sample
was handed over with (R66, R67). -/
theorem test_silence_ends : ∀ p : ArmPhase, p ∈ [.filling, .closing, .paused, .ready] →
    ∀ a : Arm, a = 0 ∨ a = 1 →
    let m : Sample := { sample 5 65000 with arm := a }
    nextIs (exec (.meterSample m sampleOrder) (silenced p m))
      (fun t => decide ((t.meterRun 0).silent = false ∧
        (t.meterRun 0).timer = if p = .filling ∨ p = .closing then some 1000 else none)) = true := by
  decide +kernel

theorem next_metering (last : Option Byte) (m : Sample) (s : State) : NextSample (metering last m s) m := by
  simp [NextSample, metering]

/-- Invalid slot, repeat, baseline, and deltas at the surge limit (500) and one above it. -/
theorem test_sample_met :
    (State.reset.meterRec 0).valid = false ∧
    (let s := metering (some 4) (sample 4 0) running
     (s.meterRec 0).valid = true ∧ (s.meterRun 0).lastSeq = some 4) ∧
    ((metering none (sample 5 0) running).meterRun 0).lastSeq = none ∧
    (65500 + 65536 - 65000 % 65536) % 65536 = meterRecord.surge ∧
    meterRecord.surge < (65501 + 65536 - 65000 % 65536) % 65536 ∧
    takesVolume ((inPhase 0 .filling).ctxOf 0).state = true ∧
    takesVolume ((inPhase 0 .ready).ctxOf 0).state = false := by decide +kernel

/-- A count that wraps past its format's largest is metered whole: 500 counts are 500 centilitres. -/
theorem test_sample_batch : nextIs (exec (.meterSample (sample 5 65500) sampleOrder)
      (metering (some 4) (sample 5 65500) (inPhase 0 .filling)))
    (fun t => decide ((t.ctxOf 0).g = 500 ∧ (t.meterRun 0).lastFlow = 300 ∧
      (t.meterRun 0).gapCount = 0)) = true := by decide +kernel

theorem test_sample_unassigned : nextIs (exec (.meterSample (sample 6 65100) sampleOrder)
      (metering (some 4) (sample 6 65100) (inPhase 0 .ready)))
    (fun t => decide (sel t.meter.unassigned 0 = 100 ∧ (t.ctxOf 0).flowAfterClose = true ∧
      (t.meterRun 0).gapCount = 1)) = true := by decide +kernel

theorem test_bands_met : meterRecord.bands ≠ [] ∧ bandFactor 6000 meterRecord.bands = 100000 ∧
    bandFactor 6001 meterRecord.bands = 100000 := by decide

def heldReport (closed : Bool) : HeldReport := { ackSeq := 1, flow := 0, closed := closed, fault := false }

/-- An arm in CLOSING whose gasoline valve has reported closed and whose meter is settled. -/
def closeDone (why : CloseReason) : State :=
  ((closingFor why).setChan 0 .gasoline { ValveChan.initial with held := some (heldReport true) }).setClose 0
    { timer := some 8000, gasSettled := true, ethSettled := false }

theorem test_close_met : ∀ why : CloseReason,
    (closeDone why).phase 0 = .closing ∧ ((closeDone why).ctxOf 0).closeReason = some why ∧
    ((closeDone why).ctxOf 0).batch = some (batch 0) ∧
    heldClosed ((closeDone why).chan 0 .gasoline) = true ∧
    (ArmCtx.recipe ((closeDone why).ctxOf 0)).ratio = 0 ∧
    ((closeDone why).closeOf 0).gasSettled = true ∧ valveCondition (closeDone why) 0 = true ∧
    ((closeDone why).closeOf 0).timer = some 8000 ∧
    heldClosed ((closingFor why).chan 0 .gasoline) = false ∧ valveCondition (closingFor why) 0 = false := by
  intro why; cases why <;> decide +kernel

theorem test_close_limit : nextIs (exec (.closeLimitExpiry 0) (closeDone .stop))
      (fun t => decide (t.phase 0 = .done ∧ t.rep.records.length = 1)) = true ∧
    nextIs (exec (.closeLimitExpiry 0) (closingFor .stop))
      (fun t => decide (t.phase 0 = .halted ∧ (t.ctxOf 0).faultCode = some .valveNotClosed)) = true := by
  decide +kernel

theorem test_close_limit_stopped_met : (State.reset.closeOf 0).timer = none := by decide +kernel

/-- The silence timer of slot 0 runs. -/
def listening (s : State) : State :=
  s.setMeterRun 0 { MeterRun.cleared with timer := some 1000 }

theorem test_silence_met : (State.reset.meterRun 15).timer = none ∧
    ((listening State.reset).meterRun 0).timer = some 1000 ∧ slotArm (listening State.reset) 0 = none ∧
    slotArm (listening (plant (inPhase 0 .filling))) 0 = some 0 ∧
    valveCondition (listening (plant (inPhase 0 .filling))) 0 = false ∧
    isFlowing ((listening (plant (inPhase 0 .filling))).phase 0) = true ∧
    (listening (plant (closingFor .stop))).phase 0 = .closing ∧
    ((listening (plant (closingFor .stop))).ctxOf 0).closeReason ≠ some .fault ∧
    valveCondition (listening (plant (closingFor .stop))) 0 = false := by decide +kernel

def valveRpt (closed fault : Bool) : ValveRpt :=
  { arm := 0, stream := .gasoline, station := 0x11, ackSeq := 1, flow := 5, closed := closed,
    fault := fault }

/-- The gasoline channel of arm 0 has a departed order, a latched demand, and its report waits. -/
def answering (latched : Option Nat) (r : ValveRpt) (p : ArmPhase) : State :=
  let s := (plant (inPhase 0 p)).setChan 0 .gasoline
    { ValveChan.initial with
      inFlight := some { valveFlight with departed := true, timer := some 500 }, latched := latched,
      nextSeq := 2 }
  let g : RegState := { s.reg with reports := [r] }
  let x : StopState := { s.stop with
    reports := [r], tracking := [{ members := [0x11], retry := 0, timer := some 300 }] }
  { s with reg := g, stop := x }

theorem next_answering (latched : Option Nat) (r : ValveRpt) (p : ArmPhase) :
    NextValveReport (answering latched r p) r ∧ NextStopReport (answering latched r p) r := by
  constructor
  · simp [NextValveReport, answering]
  · simp [NextStopReport, answering]

theorem test_valve_report_met :
    (let s := answering none (valveRpt false false) .filling
     (s.chan 0 .gasoline).inFlight = some { valveFlight with departed := true, timer := some 500 } ∧
     valveFlight.seq = (valveRpt false false).ackSeq ∧ (s.chan 0 .gasoline).latched = none) ∧
    (let s := answering (some 6) (valveRpt false false) .filling
     (s.chan 0 .gasoline).latched = some 6 ∧ (6 : Nat) ≠ valveFlight.demand ∧
     (station s 0 .gasoline).map Prod.fst = some 0x11 ∧ s.d0.normal.length < 16) ∧
    (State.reset.chan 0 .gasoline).inFlight = none ∧
    isFlowing ((answering none (valveRpt false true) .filling).phase 0) = true := by decide +kernel

theorem test_valve_report_latched : nextIs (exec (.valveReport (valveRpt false false))
      (answering (some 6) (valveRpt false false) .filling))
    (fun t => decide ((t.chan 0 .gasoline).lastSent = some 6 ∧ t.d0.normal.length = 1)) = true := by
  decide +kernel

/-- A watched ethanol channel answers a yield. -/
def watched : State :=
  let r : ValveRpt := { valveRpt false false with stream := .ethanol, station := 0x13 }
  let s := ((inPhase 100 .filling).setChan 0 .ethanol
    { ValveChan.initial with inFlight := some { valveFlight with departed := true, timer := some 500 } }).setWatch 0 true
  let g : RegState := { s.reg with reports := [r] }
  { s with reg := g }

theorem test_yield_watch_met : sel watched.reg.watch 0 = true ∧
    (watched.chan 0 .ethanol).latched = none ∧ watched.reg.reports.length = 1 := by decide +kernel

/-- Station 0x11 is marked not closed, or tracked with a retry count and its timer. -/
def marked : State :=
  let s := answering none (valveRpt true false) .filling
  let x : StopState := { s.stop with marks := put s.stop.marks 16 true, trip := true }
  { s with stop := x }

def retrying (n : Nat) (timer : Timer) (p : ArmPhase) : State :=
  let s := plant (inPhase 0 p)
  let x : StopState := { s.stop with tracking := [{ members := [0x11], retry := n, timer := timer }] }
  { s with stop := x }

theorem test_tracking_met : isMarked marked 0x11 = true ∧ NextStopReport marked (valveRpt true false) ∧
    isMarked (answering none (valveRpt true false) .filling) 0x11 = false ∧
    State.reset.stop.tracking[0]? = none ∧
    (retrying 3 none .paused).stop.tracking[0]? = some { members := [0x11], retry := 3, timer := none } ∧
    (retrying 2 (some 300) .paused).stop.tracking[0]? =
      some { members := [0x11], retry := 2, timer := some 300 } ∧
    (retrying 3 (some 300) .paused).phase (nodeAt (retrying 3 (some 300) .paused) 0x11).arm = .paused := by
  unfold NextStopReport; decide +kernel

theorem test_retry : nextIs (exec (.retryTimerExpiry 0) (retrying 2 (some 300) .paused))
      (fun t => decide (t.phase 0 = .paused ∧ t.stop.trip = false)) = true ∧
    nextIs (exec (.retryTimerExpiry 0) (retrying 3 (some 300) .paused))
      (fun t => decide (t.phase 0 = .halted ∧ t.stop.trip = true ∧ t.stop.tracking = [])) = true := by
  decide +kernel


/-- Channel 0 has a stroke in flight at flow 300, its check flow, or below it, and its report waits. -/
def strokeRpt (confirmed : Bool) : StrokeRpt := { channel := 0, source := 0x12, seq := 1, confirmed := confirmed }

def stroking (missed : Nat) (flow : Nat) (r : StrokeRpt) : State :=
  let k : StrokeFlight := { strokeFlight with flowAtOrder := flow, departed := true, timer := some 500 }
  let s := (plant (inPhase 0 .filling)).setInjRun 0
    { InjRun.initial with state := .stroking, owed0 := 2, missCount := missed, inFlight := some k, nextSeq := 2 }
  let j : InjState := { s.inj with reports := [r] }
  { s with inj := j }

theorem test_stroke_met : ∀ b : Bool,
    NextStrokeReport (stroking 0 300 (strokeRpt b)) (strokeRpt b) ∧
    (headBinding (stroking 0 300 (strokeRpt b)) 0).map Prod.fst = some 0x12 ∧
    ((stroking 0 300 (strokeRpt b)).injRun 0).state = .stroking ∧
    (((stroking 0 300 (strokeRpt b)).injRun 0).inFlight.map (fun k => k.timer)) = some (some 500) ∧
    (((stroking 0 300 (strokeRpt b)).injRun 0).inFlight.map (fun k => k.seq)) = some (strokeRpt b).seq ∧
    (State.reset.injRun 0).inFlight = none := by
  unfold NextStrokeReport; decide +kernel

theorem test_stroke_confirmed : nextIs (exec (.strokeReport (strokeRpt true)) (stroking 3 300 (strokeRpt true)))
    (fun t => decide ((t.injRun 0).missCount = 0 ∧ (t.injRun 0).owed0 = 1 ∧
      (t.injRun 0).state = .stroking ∧ t.d0.normal.length = 1)) = true := by decide +kernel

/-- At the check flow the fourth miss isolates; below it the miss is not counted. -/
theorem test_stroke_missed :
    nextIs (exec (.strokeTimerExpiry 0) (stroking 3 300 (strokeRpt true)))
      (fun t => decide ((t.injRun 0).state = .isolated ∧ (t.injRun 0).owed0 = 0)) = true ∧
    nextIs (exec (.strokeTimerExpiry 0) (stroking 3 299 (strokeRpt true)))
      (fun t => decide ((t.injRun 0).missCount = 3 ∧ (t.injRun 0).owed0 = 2)) = true := by
  decide +kernel

/-- Arm 0 needs its permit, holds it, and a report waits; the permit timer runs. -/
def permitted (p : ArmPhase) (bits : Byte) : State :=
  let s := permitless p
  let a : ArmState := { s.arms with permits := 0x01, permitTimer := some 1000, permitReports := [bits] }
  { s with arms := a }

theorem test_permit_met : (permitted .filling 0xFE).arms.permitReports.head? = some 0xFE ∧
    (permitted .filling 0xFE).arms.permitTimer = some 1000 ∧
    (∀ a, isRunning ((permitted .filling 0xFE).phase a) = true →
      valveCondition (permitted .filling 0xFE) a = false) ∧
    (permitted .filling 0xFE).arms.permits.getLsbD 0 = true ∧ (0xFE : Byte).getLsbD 0 = false ∧
    State.reset.arms.permitTimer = none := by decide +kernel

theorem test_permit_lost : nextIs (exec (.permitReport 0xFE) (permitted .filling 0xFE))
    (fun t => decide (t.ctxOf 0 = closedByFault (ctx 0 .filling) .permitLost ∧
      t.arms.permits = 0xFE)) = true := by decide +kernel

/-- A departed order unanswered, with an expiry count; the normal queue of D0 holds n frames. -/
def unanswered (count n : Nat) (p : ArmPhase) : State :=
  let s := answering (some 6) (valveRpt false false) p
  (atPortD n .relayed false s).setChan 0 .gasoline
    { s.chan 0 .gasoline with expiryCount := count }

theorem test_unanswered_met : (∀ n : Fin 2, let s := unanswered 0 (15 + n.val) .filling
      ((s.chan 0 .gasoline).inFlight.map (fun o => o.timer)) = some (some 500) ∧
      (s.chan 0 .gasoline).expiryCount = 0 ∧ (station s 0 .gasoline).isSome = true ∧
      decide (s.d0.normal.length < 16) = decide (n.val = 0)) ∧
    (∀ p : ArmPhase, p ∈ [.idle, .ready, .waiting, .filling, .closing, .paused, .halted, .done] →
      (unanswered 1 0 p).phase 0 = p ∧ ((unanswered 1 0 p).chan 0 .gasoline).expiryCount = 1 ∧
      valveCondition (unanswered 1 0 p) 0 = false) ∧
    (State.reset.chan 7 .ethanol).inFlight = none := by decide +kernel

theorem test_response : nextIs (exec (.valveResponseExpiry 0 .gasoline) (unanswered 0 15 .filling))
      (fun t => decide ((t.chan 0 .gasoline).lastSent = some 6 ∧
        (t.chan 0 .gasoline).expiryCount = 1)) = true ∧
    nextIs (exec (.valveResponseExpiry 0 .gasoline) (unanswered 1 0 .paused))
      (fun t => decide (t.phase 0 = .halted)) = true := by decide +kernel

/-! ## Header Allocator -/

/-- Arm 0 waits with a request of 2 shares at least 1, and a pass is called for. -/
def serving (effective : Nat) (cap : Option Nat) (spacing : Nat) : State :=
  let s := (inPhase 100 .waiting).setGrant 0
    { sReq := 2, sMin := 1, granted := 0, yieldPending := false, order := none }
  let h : HeaderState := { s.header with
    record := { s.header.record with spacing := spacing }, effective := effective,
    pendingCap := cap, passCalled := true }
  { s with header := h }

theorem test_serving_met :
    (∀ n : Fin 2, let s := serving n.val none 1
      s.header.passCalled = true ∧ s.header.spacing = none ∧ s.header.pendingCap = none ∧
      s.header.queue = [0] ∧ 0 < s.header.record.spacing ∧
      (decide ((s.grantOf 0).sMin ≤ s.header.effective - grantedSum s) = decide (n.val = 1)) ∧
      (decide (s.header.effective < (s.grantOf 0).sMin) = decide (n.val = 0))) ∧
    (let s := serving 1 none 1
     (ArmCtx.recipe (s.ctxOf 0)).closeAhead < ArmCtx.remaining (s.ctxOf 0) ∧
     ArmCtx.total (s.ctxOf 0) - (s.ctxOf 0).phaseBase < (ArmCtx.recipe (s.ctxOf 0)).startVolume ∧
     mandatoryIsolated s 0 = false) ∧
    (serving 1 (some 0) 1).header.pendingCap = some 0 ∧ State.reset.header.passCalled = false := by
  decide +kernel

/-- The queue is empty and a flowing arm could be topped up. -/
def toppable : State :=
  let s := granted 100 .filling
  let h : HeaderState := { s.header with effective := 3, passCalled := true }
  (({ s with header := h } : State)).setGrant 0
    { sReq := 3, sMin := 1, granted := 2, yieldPending := false, order := some 1 }

theorem test_top_up_met : toppable.header.passCalled = true ∧ toppable.header.queue = [] ∧
    toppable.header.pendingCap = none ∧ toppable.header.spacing = none := by decide +kernel

theorem test_serving : nextIs (exec .servingPass (serving 1 none 1))
      (fun t => decide (t.phase 0 = .starting ∧ (t.grantOf 0).granted = 1 ∧
        (t.grantOf 0).order = some 1 ∧ t.header.spacing = some 1)) = true ∧
    nextIs (exec .servingPass toppable) (fun t => decide ((t.grantOf 0).granted = 3)) = true := by
  decide +kernel

/-- The spacing timer runs, and no pass is called for. -/
def spaced (s : State) : State :=
  let h : HeaderState := { s.header with spacing := some 1, passCalled := false }
  { s with header := h }

/-- What the clauses of a pass ask of a state holds of it with the spacing timer running too. -/
theorem test_spacing_met (s : State) : (spaced s).header.spacing = some 1 ∧
    (spaced s).header.pendingCap = s.header.pendingCap ∧ (spaced s).header.queue = s.header.queue ∧
    (spaced s).header.effective = s.header.effective ∧ (spaced s).header.record = s.header.record ∧
    (spaced s).header.grants = s.header.grants ∧ (spaced s).arms = s.arms ∧ (spaced s).inj = s.inj :=
  ⟨rfl, rfl, rfl, rfl, rfl, rfl, rfl, rfl⟩

theorem test_spacing_stopped_met : State.reset.header.spacing = none := rfl

theorem test_spacing : nextIs (exec .spacingTimerExpiry (spaced (serving 1 none 1)))
      (fun t => decide (t.phase 0 = .starting ∧ t.header.spacing = some 1)) = true ∧
    nextIs (exec .spacingTimerExpiry (spaced toppable))
      (fun t => decide ((t.grantOf 0).granted = 3 ∧ t.header.spacing = none)) = true := by
  decide +kernel

/-- Arm 0's wait timer runs. -/
def waiting : State := (inPhase 100 .waiting).setWaitTimer 0 { timer := some 60000, raised := false }

/-- An answer has been given for arm 0, with a yield pending or not. -/
def yielding (pending : Bool) (cap : Option Nat) : State :=
  let s := (granted 100 .filling).setGrant 0
    { sReq := 2, sMin := 1, granted := 2, yieldPending := pending, order := some 1 }
  let h : HeaderState := { s.header with yieldAnswers := [0], pendingCap := cap }
  { s with header := h }

theorem test_waits_and_yields_met : (sel waiting.header.waitTimers 0).timer = some 60000 ∧
    waiting.phase 0 = .waiting ∧ waiting.rep.alerts.length < 32 ∧
    (sel State.reset.header.waitTimers 7).timer = none ∧
    (7 : Arm) ∉ (yielding true none).header.yieldAnswers ∧
    (0 : Arm) ∈ (yielding true (some 1)).header.yieldAnswers ∧
    ((yielding true (some 1)).grantOf 0).yieldPending = true ∧
    ((yielding false none).grantOf 0).yieldPending = false ∧
    (yielding true (some 1)).header.pendingCap = some 1 ∧
    (yielding true none).header.spacing = none := by decide +kernel

theorem test_yield : nextIs (exec (.yieldAnswer 0) (yielding true (some 1)))
    (fun t => decide ((t.grantOf 0).granted = 1 ∧ t.header.effective = 1 ∧
      t.header.pendingCap = none)) = true := by decide +kernel

theorem test_wait : nextIs (exec (.waitTimerExpiry 0) waiting)
    (fun t => decide (t.phase 0 = .waiting ∧ t.header.queue = [0] ∧
      (t.rep.alerts.any (fun x => decide (x.kind = .headerWait ∧ x.subject = .arm 0))) = true)) = true := by
  decide +kernel

theorem test_event_frame_met : isEvent .servingPass = true ∧
    ∃ t, exec .servingPass (serving 1 none 1) = .next t := ⟨rfl, _, rfl⟩

/-! ## Laws of ids, stations, bindings and lines: a state that has each law and steps -/

/-- Arm 0 fills with one line on channel 0, whose stroke is in flight and charged OWED; its station is
tracked, and a record with another id is held. -/
def lined : State :=
  let s := plant (inPhase 0 .filling)
  let l : LineState := { channel := 0, outlet := false, vs := 1000, due := 3, delivered := 1, dropped := 1 }
  let k : StrokeFlight := { outlet := false, seq := 0, flowAtOrder := 0, charge := .owed,
                            departed := false, timer := none }
  let s1 := s.setCtx 0 { ctx 0 .filling with lines := [l] }
  let s2 := s1.setInjRun 0 { InjRun.initial with state := .stroking, owed0 := 1, inFlight := some k }
  let x : StopState := { s2.stop with tracking := [{ members := [0x11], retry := 3, timer := some 300 }] }
  let r : RepState := { s2.rep with records :=
    [recordOf 1 (ctx 0 .done) { batch 0 with id := 8 } .stopped 0] }
  { s2 with stop := x, rep := r, pending := [.engineSecondsTick] }

theorem test_ids_law_met : QueueOk lined ∧ StoreOk lined ∧ IdsOk lined := by
  unfold QueueOk StoreOk IdsOk ctxOk
  decide +kernel

theorem test_tracking_law_met : TrackingOk lined := by
  refine ⟨by decide +kernel, ?_⟩
  intro x hx
  rw [show lined.stop.tracking = [{ members := [0x11], retry := 3, timer := some 300 }] from rfl,
    List.mem_singleton] at hx
  subst hx
  refine ⟨by decide, by decide, fun n hn => ?_⟩
  rw [List.mem_singleton] at hn
  subst hn
  exact ⟨.gasoline, 0, by unfold Binds; decide +kernel⟩

theorem test_bindings_law_met : BindingsOk ticking := by
  intro n _ h
  have e : nodeAt ticking n = NodeEntry.initial := reset_nodes n
  have hv : (nodeAt ticking n).valid = true := h.1
  rw [e] at hv
  exact absurd hv (by decide)

/-- The flight of every channel but channel 0 is absent. -/
theorem lined_flight (c : Channel) (k : StrokeFlight) (h : (lined.injRun c).inFlight = some k) :
    c = 0 ∧ k.charge = .owed ∧ k.outlet = false := by
  have hc : ∀ c : Channel, c ≠ 0 → (lined.injRun c).inFlight = none := by decide +kernel
  by_cases e : c = 0
  · subst e
    have hk : (lined.injRun 0).inFlight = some
        { outlet := false, seq := 0, flowAtOrder := 0, charge := .owed, departed := false,
          timer := none } := by decide +kernel
    rw [hk, Option.some.injEq] at h
    subst h
    exact ⟨rfl, rfl, rfl⟩
  · rw [hc c e] at h
    exact absurd h (by simp)

theorem test_line_law_met : ChannelsOk lined ∧ LinesOk lined := by
  refine ⟨?_, ⟨?_, ?_⟩, ?_, fun c => ⟨?_, fun k hk => ?_⟩⟩
  · intro c; unfold runOk; revert c; decide +kernel
  · decide +kernel
  · decide +kernel
  · unfold LinesAddUp; decide +kernel
  · unfold HasLine; revert c; decide +kernel
  · obtain ⟨rfl, h1, h2⟩ := lined_flight c k hk
    refine ⟨fun _ => by rw [h2]; decide +kernel, fun h => ?_⟩
    rw [h1] at h
    exact absurd h (by decide)

theorem test_lined_step : ∃ t, step lined = .next t := ⟨_, rfl⟩

/-! ## Admission, bindings, demands -/

theorem test_admission_met :
    (atPortU [] 23).portU.queue.length + (atPortU [] 23).portU.waiting.length < 24 ∧
    24 ≤ (atPortU [] 24).portU.queue.length + (atPortU [] 24).portU.waiting.length := by decide +kernel

/-- The gasoline channel of arm 0 in a state, the queue of its port holding n frames. -/
def channelAt (c : ValveChan) (n : Nat) : State :=
  (atPortD n .relayed false (plant (inPhase 0 .ready))).setChan 0 .gasoline c

theorem test_demand_met :
    ((channelAt { ValveChan.initial with inFlight := some valveFlight } 0).chan 0 .gasoline).inFlight =
      some valveFlight ∧
    (let c := (channelAt { ValveChan.initial with pendingSlot := some .d0 } 16).chan 0 .gasoline
     c.inFlight = none ∧ c.pendingSlot ≠ none) ∧
    (let c := (channelAt { ValveChan.initial with lastSent := some 0 } 0).chan 0 .gasoline
     c.inFlight = none ∧ c.pendingSlot = none ∧ c.lastSent = some 0 ∧ c.lastSent ≠ some 300) ∧
    (∀ n : Fin 2, let s := channelAt ValveChan.initial (15 + n.val)
      (s.chan 0 .gasoline).inFlight = none ∧ (s.chan 0 .gasoline).pendingSlot = none ∧
      (s.chan 0 .gasoline).lastSent ≠ some 300 ∧ (station s 0 .gasoline).isSome = true ∧
      decide (s.d0.normal.length < 16) = decide (n.val = 0)) ∧
    station running 0 .gasoline = none := by decide +kernel

/-- START with R = 0 sends its first VALVE ORDER where the station's queue has room, and latches it where
the queue is full. -/
theorem test_start_orders_valve : ∀ n : Fin 2,
    nextIs (exec (.start ctl 0) (asks (.start 0) (channelAt ValveChan.initial (15 + n.val))))
      (fun t => decide (t.d0.normal.length = 16 ∧ (t.chan 0 .gasoline).latched =
        (if n.val = 0 then none else some 300))) = true := by decide +kernel

/-! ## Samples -/

/-- A sample of 500 counts at slot 0 of arm 0, whose context is given. -/
def sampling (c : ArmCtx) : State :=
  metering (some 4) (sample 5 65500) ((inPhase 0 c.state).setCtx 0 c)

theorem test_sample_in_order (c : ArmCtx) : InOrderSample (sampling c) (sample 5 65500) := by
  refine ⟨next_metering _ _ _, rfl, ⟨4, rfl, rfl⟩, ?_⟩
  have h : deltaRead (sampling c) (sample 5 65500) = deltaRead (sampling (ctx 0 .idle)) (sample 5 65500) := rfl
  rw [h]
  show _ ≤ meterRecord.surge
  decide +kernel

/-- The volume left at the close-ahead volume (50) and one above it, after 500 cL. -/
theorem test_sample_ends_met :
    (let s := sampling { ctx 0 .filling with g := 450 }
     let v := ctxWithVolume s (sample 5 65500)
     isFlowing ((s.ctxOf 0).state) = true ∧ valveCondition s 0 = false ∧
     v.preset - (v.g + v.e) = 50 ∧ v.recipe.closeAhead = 50) ∧
    (let s := sampling { ctx 0 .filling with g := 449 }
     let v := ctxWithVolume s (sample 5 65500)
     valveCondition s 0 = false ∧ v.preset - (v.g + v.e) = 51) := by decide +kernel

/-- A ratio error above the limit, one run short of the deviation count (3) and at it. -/
theorem test_sample_deviation_met : ∀ n : Fin 2,
    let s := sampling { ctx 100 .filling with devRun := 1 + n.val }
    let v := ctxWithVolume s (sample 5 65500)
    valveCondition s 0 = false ∧ (s.ctxOf 0).state = .filling ∧
    ¬ v.preset - (v.g + v.e) ≤ v.recipe.closeAhead ∧
    (v.recipe.startVolume ≤ v.g + v.e ∧ 0 < v.g + v.e) ∧ v.recipe.devLimit < devOf v ∧
    decide (v.recipe.devCount ≤ min (v.devRun + 1) 15) = decide (n.val = 1) := by decide +kernel

theorem test_sample_unjudged_met :
    (let v := ctxWithVolume (sampling (ctx 0 .topping)) (sample 5 65500)
     ¬ v.recipe.devLimit < devOf v) ∧
    (let s := metering (some 4) (sample 5 65099) (inPhase 0 .filling)
     let v := ctxWithVolume s (sample 5 65099)
     v.g + v.e = 99 ∧ ¬ v.recipe.startVolume ≤ v.g + v.e) := by decide +kernel

theorem test_sample_at_rest_met : ∀ p : ArmPhase, p ∈ [.closing, .paused, .halted] →
    (sampling (ctx 0 p)).phase 0 = p ∧ valveCondition (sampling (ctx 0 p)) 0 = false := by
  decide +kernel

theorem test_sample_evaluated :
    nextIs (exec (.meterSample (sample 5 65500) sampleOrder) (sampling { ctx 0 .filling with g := 450 }))
      (fun t => decide (t.phase 0 = .closing ∧ (t.ctxOf 0).closeReason = some .theEnd)) = true ∧
    nextIs (exec (.meterSample (sample 5 65500) sampleOrder)
        (sampling { ctx 100 .filling with devRun := 2 }))
      (fun t => decide (t.phase 0 = .closing ∧
        (t.ctxOf 0).faultCode = some .blendDeviation)) = true := by decide +kernel

/-- Arm 0 with one mandatory line on channel 0, due 9 strokes at the last sample, the channel owing n. -/
def lineSampling (p : ArmPhase) (run : InjPhase) (n : Nat) : State :=
  let l : LineState := { channel := 0, outlet := false, vs := 50, due := 9, delivered := 9, dropped := 0 }
  let q : Recipe := { recipe 0 with lines := [{ code := 7, dose := 1000, mandatory := 1 }] }
  let b : Batch := { batch 0 with snapshot := q }
  (sampling { ctx 0 p with lines := [l], batch := some b }).setInjRun 0
    { InjRun.initial with
      state := run, owed0 := n, inFlight := if run = .stroking then some strokeFlight else none }

/-- The channels keep their law in each state with nothing owed, and with 0 to 15 strokes owed. -/
theorem test_strokes_law_met :
    (∀ p : ArmPhase, p ∈ [.filling, .closing, .paused, .halted] →
      ∀ r : InjPhase, r ∈ [.available, .stroking, .isolated, .unconfigured] →
      ChannelsOk (lineSampling p r 0)) ∧
    ∀ n : Fin 16, ChannelsOk (lineSampling .filling .available n.val) := by
  unfold ChannelsOk runOk
  decide +kernel

/-- 500 cL make 10 strokes due, one more than at the last sample; 14 and 15 owed stand at and above the
cap with it, and 2 and 3 at and above half the pace limit (4). -/
theorem test_strokes_met :
    ((500 + 50 / 2) / 50 = 10) ∧
    (∀ p : ArmPhase, p ∈ [.filling, .closing, .paused, .halted] →
      ∀ r : InjPhase, r ∈ [.available, .stroking, .isolated, .unconfigured] →
      let s := lineSampling p r 0
      let v := ctxWithVolume s (sample 5 65500)
      v.g + v.e = 500 ∧ valveCondition s 0 = false ∧ takesVolume (s.phase 0) = true ∧
      ((s.ctxOf 0).lines.map (fun l => l.channel)).Nodup ∧
      ((s.ctxOf 0).lines.map (fun l => l.due)) = [9] ∧ (s.injRun 0).state = r) ∧
    (∀ n : Fin 16, ((lineSampling .filling .available n.val).injRun 0).owed false = n.val) := by
  decide +kernel

theorem test_strokes_fall :
    nextIs (exec (.meterSample (sample 5 65500) sampleOrder) (lineSampling .filling .available 15))
      (fun t => decide ((t.ctxOf 0).lines.map (fun l => (l.due, l.dropped)) = [(10, 1)] ∧
        (t.injRun 0).owed0 = 15 ∧ (t.injRun 0).state = .stroking ∧ (t.ctxOf 0).paceHold = true)) = true ∧
    nextIs (exec (.meterSample (sample 5 65500) sampleOrder) (lineSampling .paused .available 0))
      (fun t => decide ((t.ctxOf 0).lines.map (fun l => (l.due, l.dropped)) = [(10, 1)] ∧
        (t.injRun 0).owed0 = 0)) = true := by decide +kernel

/-- Slot 0 reads by DELTA8 with surge limit 500; a sample of n counts waits. -/
def delta8 (seq : Byte) (n : Nat) (fault : Bool) (p : ArmPhase) : State :=
  let m : Sample := { sample seq (BitVec.ofNat 24 n) with fault := fault }
  let s := metering (some 4) m (inPhase 0 p)
  let x : MeterState := { s.meter with table := put s.meter.table 0 { meterRecord with format := 2 } }
  { s with meter := x }

/-- A gap, a delta one above the surge limit, and a head fault, each alone, in each state that takes it. -/
theorem test_sample_faults_met : ∀ p : ArmPhase, p ∈ [.starting, .filling, .topping, .closing, .paused] →
    (∀ s ∈ [delta8 6 0 false p, delta8 5 501 false p, delta8 5 0 true p],
      (s.meterRec 0).valid = true ∧ valveCondition s 0 = false ∧ (s.meterRun 0).lastSeq = some 4 ∧
      (s.meterRec 0).format = 2 ∧ (s.meterRec 0).surge = 500 ∧ (s.meterRun 0).headRaised = false ∧
      takesVolume (s.phase 0) = true ∧ isMoving (s.phase 0) = decide (p ≠ .paused)) ∧
    deltaRead (delta8 5 501 false p) (sample 5 501) = 501 ∧
    deltaRead (delta8 5 500 false p) (sample 5 500) = 500 := by decide +kernel

theorem test_sample_fault_codes :
    (∀ x ∈ [(sample 6 0, AlertKind.meterGap), (sample 5 501, .meterSurge),
            ({ sample 5 0 with fault := true }, .meterHeadFault)],
      nextIs (exec (.meterSample x.1 sampleOrder)
          (delta8 x.1.seq x.1.count.toNat x.1.fault .filling))
        (fun t => decide (t.phase 0 = .closing ∧ (t.ctxOf 0).closeReason = some .fault ∧
          (t.ctxOf 0).faultCode = some x.2)) = true) ∧
    nextIs (exec (.meterSample (sample 5 501) sampleOrder) (delta8 5 501 false .paused))
      (fun t => decide (t.phase 0 = .halted)) = true := by decide +kernel

/-! ## Closes that a report, a sample or a silence completes -/

/-- An arm in CLOSING whose gasoline valve is closed and whose meter is still waited for. -/
def restless (why : CloseReason) : State :=
  let s := plant (closingFor why)
  s.setChan 0 .gasoline { ValveChan.initial with held := some (heldReport true) }

/-- A quiet sample waits. -/
def quiet (why : CloseReason) : State := metering (some 4) (sample 5 65000) (restless why)

theorem test_quiet_sample_met : ∀ why : CloseReason,
    InOrderSample (quiet why) (sample 5 65000) ∧ deltaRead (quiet why) (sample 5 65000) = 0 ∧
    (quiet why).phase 0 = .closing ∧ valveCondition (quiet why) 0 = true ∧
    ((quiet why).ctxOf 0).closeReason = some why ∧ ((quiet why).ctxOf 0).batch = some (batch 0) ∧
    ¬ Waits (quiet why) 0 .ethanol ∧ meterSlot (quiet why) 0 .ethanol ≠ some 0 := by
  intro why
  refine ⟨⟨next_metering _ _ _, ?_, ⟨4, ?_, rfl⟩, ?_⟩, ?_⟩ <;> cases why <;>
    first | decide +kernel | (unfold Waits; decide +kernel)

/-- The ethanol meter of an arm with R above 0 is still waited for. -/
def halfQuiet : State :=
  let s := (quiet .stop).setCtx 0 { ctx 100 .closing with closeReason := some .stop }
  s.setChan 0 .ethanol { ValveChan.initial with held := some (heldReport true) }

theorem test_quiet_sample_waits_met : InOrderSample halfQuiet (sample 5 65000) ∧
    valveCondition halfQuiet 0 = true ∧ Waits halfQuiet 0 .ethanol ∧ ¬ Settled halfQuiet 0 .ethanol := by
  refine ⟨⟨by unfold NextSample; decide +kernel, by decide +kernel, ⟨4, by decide +kernel, rfl⟩,
    by decide +kernel⟩, by decide +kernel, by unfold Waits; decide +kernel, ?_⟩
  rintro (h | ⟨i, h, _⟩)
  · exact absurd h (by decide +kernel)
  · rw [show meterSlot halfQuiet 0 .ethanol = none from by decide +kernel] at h
    exact absurd h (by simp)

theorem test_quiet_sample : ∀ why : CloseReason, nextIs (exec (.meterSample (sample 5 65000) sampleOrder) (quiet why))
    (fun t => decide (t.phase 0 = match why with
      | .theEnd => ArmPhase.done | .stop => .done | .pause => .paused | .fault => .halted)) = true := by
  intro why; cases why <;> decide +kernel

/-- The meter of slot 0 is all the close waits for, and its silence timer runs. -/
def hushed : State := listening (restless .stop)

theorem test_silence_completes_met : (hushed.meterRun 0).timer = some 1000 ∧ slotArm hushed 0 = some 0 ∧
    hushed.phase 0 = .closing ∧ (hushed.ctxOf 0).closeReason ≠ none ∧
    (hushed.ctxOf 0).batch = some (batch 0) ∧ valveCondition hushed 0 = true ∧
    meterSlot hushed 0 .gasoline = some 0 ∧ (hushed.ctxOf 0).recipe.ratio = 0 := by decide +kernel

theorem test_silence_completes : nextIs (exec (.meterSilenceExpiry 0) hushed)
    (fun t => decide (t.phase 0 = .halted ∧ (t.ctxOf 0).faultCode = some .meterSilent)) = true := by
  decide +kernel

/-- A closed report waits for an arm in CLOSING whose meter is settled. -/
def shutting (why : CloseReason) : State :=
  let s := (plant (closingFor why)).setClose 0 { timer := some 8000, gasSettled := true, ethSettled := false }
  let g : RegState := { s.reg with reports := [valveRpt true false] }
  { s with reg := g }

theorem test_valve_completes_met : ∀ why : CloseReason,
    NextValveReport (shutting why) (valveRpt true false) ∧ (shutting why).phase 0 = .closing ∧
    ((shutting why).ctxOf 0).closeReason = some why ∧ ((shutting why).ctxOf 0).batch = some (batch 0) ∧
    ((shutting why).closeOf 0).gasSettled = true ∧ ¬ Waits (shutting why) 0 .ethanol := by
  intro why; unfold NextValveReport Waits; cases why <;> decide +kernel

theorem test_valve_completes : nextIs (exec (.valveReport (valveRpt true false)) (shutting .stop))
    (fun t => decide (t.phase 0 = .done ∧ t.rep.records.length = 1)) = true := by decide +kernel

/-- A close that completes while channel 0 owes two strokes to the arm's line, one of them in flight. -/
def owing : State :=
  let l : LineState := { channel := 0, outlet := false, vs := 50, due := 2, delivered := 0, dropped := 0 }
  let s := plant (closeDone .stop)
  (s.setCtx 0 { s.ctxOf 0 with lines := [l], paceHold := true }).setInjRun 0
    { InjRun.initial with state := .stroking, owed0 := 2, inFlight := some strokeFlight }

theorem test_owing_met : owing.phase 0 = .closing ∧
    ((owing.ctxOf 0).lines.map (fun l => l.channel)).Nodup ∧
    (owing.ctxOf 0).lines.map (fun l => (owing.injRun l.channel).inFlight) = [some strokeFlight] ∧
    strokeFlight.outlet = false ∧ strokeFlight.charge = .owed ∧
    (owing.injRun 0).state ≠ .isolated ∧ 0 < (owing.injRec 0).pace := by decide +kernel

theorem test_owing_drops : let t := judgeClose 0 owing
    t.phase 0 = .done ∧ (t.ctxOf 0).lines.map (fun l => l.dropped) = [2] ∧ (t.ctxOf 0).paceHold = false ∧
    (t.injRun 0).inFlight = some { strokeFlight with charge := .dropped } := by decide +kernel

/-! ## Strokes: the next one, and isolation -/

/-- As `stroking`, with the line of arm 0 on channel 0 mandatory, arm 0 in a state, and n frames in D0. -/
def missing (p : ArmPhase) (missed n : Nat) : State :=
  let l : LineState := { channel := 0, outlet := false, vs := 50, due := 2, delivered := 0, dropped := 0 }
  let q : Recipe := { recipe 0 with lines := [{ code := 7, dose := 1000, mandatory := 1 }] }
  let b : Batch := { batch 0 with snapshot := q }
  (atPortD n .relayed false (stroking missed 300 (strokeRpt true))).setCtx 0
    { ctx 0 p with lines := [l], batch := some b }

theorem test_serves_on_met : ∀ n : Fin 2, let s := missing .filling 0 (15 + n.val)
    (s.injRun 0).strokeReady = none ∧ chooseOutlet (s.injRec 0).policy (s.injRun 0) = some false ∧
    (headBinding s 0).isSome = true ∧ decide (s.d0.normal.length < 16) = decide (n.val = 0) ∧
    chooseOutlet .fixed InjRun.initial = none := by decide +kernel

theorem test_serves_on : ∀ n : Fin 2,
    nextIs (exec (.strokeTimerExpiry 0) (missing .filling 0 (15 + n.val)))
      (fun t => decide (t.d0.normal.length = 16 ∧ (t.injRun 0).missCount = 1 ∧
        (t.injRun 0).strokeReady = if n.val = 0 then none else some .d0)) = true := by decide +kernel

/-- Arm 0 is DONE with a line on channel 0 and one on channel 1, whose record has been rewritten since (pace
limit 0); a stroke of channel 0 is in flight with a charge, and n strokes are owed. -/
def heldOver (charge : Charge) (missed n : Nat) : State :=
  let l (c : Channel) : LineState :=
    { channel := c, outlet := false, vs := 50, due := 2, delivered := 0, dropped := 2 }
  let s := stroking missed 300 (strokeRpt true)
  let k : StrokeFlight := { strokeFlight with charge := charge, departed := true, timer := some 500 }
  (s.setCtx 0 { ctx 0 .done with lines := [l 0, l 1] }).setInjRun 0
    { s.injRun 0 with owed0 := n, inFlight := some k }

/-- A stroke charged DROPPED that is confirmed, and an isolation with nothing owed, change no owed count: pace
hold is not judged (R141), though the line on channel 1 stands at its limit. -/
theorem test_pace_not_judged : ((heldOver .dropped 0 0).injRec 1).pace = 0 ∧
    nextIs (exec (.strokeReport (strokeRpt true)) (heldOver .dropped 0 0))
      (fun t => decide ((t.ctxOf 0).paceHold = false ∧
        (t.ctxOf 0).lines.map (fun l => (l.delivered, l.dropped)) = [(1, 1), (0, 2)])) = true ∧
    nextIs (exec (.strokeTimerExpiry 0) (heldOver .dropped 3 0))
      (fun t => decide ((t.ctxOf 0).paceHold = false ∧ (t.injRun 0).state = .isolated)) = true := by
  decide +kernel

/-- A stroke charged OWED that is confirmed, and an isolation with strokes owed, change an owed count. -/
theorem test_pace_judged :
    nextIs (exec (.strokeReport (strokeRpt true)) (heldOver .owed 0 1))
      (fun t => decide ((t.ctxOf 0).paceHold = true)) = true ∧
    nextIs (exec (.strokeTimerExpiry 0) (heldOver .owed 3 1))
      (fun t => decide ((t.ctxOf 0).paceHold = true)) = true := by
  decide +kernel

theorem test_isolation_met : ∀ p : ArmPhase, p ∈ [.ready, .waiting, .filling, .closing, .paused, .halted] →
    MandatoryOn (missing p 3 0) 0 0 ∧ (missing p 3 0).phase 0 = p ∧ valveCondition (missing p 3 0) 0 = false ∧
    ((missing p 3 0).injRec 0).outletArm false = some 0 ∧
    ((missing p 3 0).injRec 0).outletArm true ≠ some 0 ∧
    ((missing p 3 0).injRec 0).check ≤ 300 ∧ ((missing p 3 0).injRun 0).missCount = 3 ∧
    (missing p 3 0).rep.alerts.length < 24 := by
  unfold MandatoryOn; decide +kernel

theorem test_isolation : nextIs (exec (.strokeTimerExpiry 0) (missing .filling 3 0))
    (fun t => decide ((t.injRun 0).state = .isolated ∧ t.phase 0 = .closing ∧
      (t.ctxOf 0).faultCode = some .additiveLost ∧ (t.ctxOf 0).lines.map (fun l => l.dropped) = [2] ∧
      (t.rep.alerts.any (fun x => decide (x.kind = .injectorNoFlow))) = true)) = true := by decide +kernel

/-! ## Passes: two grants, and yields -/

/-- Arms 0 and 1 wait for a pass with no spacing; n shares are free. -/
def twoWaiting (n : Nat) : State :=
  let s := (serving n none 0).setCtx 1 (ctx 100 .waiting)
  let h : HeaderState := { s.header with queue := [0, 1] }
  (({ s with header := h } : State)).setGrant 1
    { sReq := 2, sMin := 1, granted := 0, yieldPending := false, order := none }

theorem test_two_grants_met : let s := twoWaiting 3
    s.header.passCalled = true ∧ s.header.spacing = none ∧ s.header.pendingCap = none ∧
    s.header.queue = [0, 1] ∧ s.header.record.spacing = 0 ∧
    (∀ a : Arm, a = 0 ∨ a = 1 → (s.grantOf a).granted = 0 ∧
      (s.ctxOf a).recipe.closeAhead < (s.ctxOf a).remaining ∧
      (s.ctxOf a).total - (s.ctxOf a).phaseBase < (s.ctxOf a).recipe.startVolume ∧
      mandatoryIsolated s a = false) ∧
    (s.grantOf 0).sMin ≤ s.header.effective - grantedSum s ∧
    (s.grantOf 1).sMin ≤ s.header.effective - grantedSum s -
      min (s.header.effective - grantedSum s) (s.grantOf 0).sReq := by decide +kernel

/-- The laws that the clause of two grants rests on, with the pass called for and with the timer running. -/
theorem test_two_grants_law_met : QueueOk (twoWaiting 3) ∧ GrantsOk (twoWaiting 3) ∧
    QueueOk (spaced (twoWaiting 3)) ∧ GrantsOk (spaced (twoWaiting 3)) := by
  unfold QueueOk GrantsOk grantOk
  decide +kernel

theorem test_two_grants : nextIs (exec .servingPass (twoWaiting 3))
    (fun t => decide (t.phase 0 = .starting ∧ t.phase 1 = .starting ∧ (t.grantOf 0).granted = 2 ∧
      (t.grantOf 1).granted = 1 ∧ (t.grantOf 1).order = some 2)) = true := by decide +kernel

/-- Arm 0 waits for `need` shares of 3, all held by arms 1 and 2, which yield: 1 and 0 above their minimum. -/
def needy (need : Nat) : State :=
  let s := ((serving 3 none 0).setCtx 1 (ctx 100 .filling)).setCtx 2 (ctx 100 .filling)
  let a : ArmState := { s.arms with table := Vector.replicate 8 armRunnable }
  ((({ s with arms := a } : State).setGrant 0
      { sReq := 3, sMin := need, granted := 0, yieldPending := false, order := none }).setGrant 1
      { sReq := 2, sMin := 1, granted := 2, yieldPending := false, order := some 1 }).setGrant 2
      { sReq := 1, sMin := 1, granted := 1, yieldPending := false, order := some 2 }

/-- S_min of the head one above the free shares, at the effective capacity, and one above it. -/
theorem test_yields_met : (∀ n : Fin 2, let s := needy (1 + 2 * n.val)
      s.header.passCalled = true ∧ s.header.spacing = none ∧ s.header.pendingCap = none ∧
      s.header.queue = [0] ∧ s.header.effective - grantedSum s < (s.grantOf 0).sMin ∧
      (s.grantOf 0).sMin ≤ s.header.effective ∧ isCandidate s 1 = true ∧ isCandidate s 2 = false) ∧
    ¬ ((needy 4).grantOf 0).sMin ≤ (needy 4).header.effective := by decide +kernel

theorem test_yields : nextIs (exec .servingPass (needy 1))
      (fun t => decide ((t.grantOf 1).yieldPending = true ∧ (t.grantOf 2).yieldPending = false ∧
        t.phase 0 = .waiting)) = true ∧
    nextIs (exec .servingPass (needy 4))
      (fun t => decide ((t.grantOf 1).yieldPending = false)) = true := by decide +kernel

end Sys2Proof.Tests
end

/-! ## Normal queues under the engine's orders (R12, R104, R135) -/

namespace Sys2Proof.Machine

/-! ### Operations that leave the D ports -/

/-- The two D ports. -/
def ports (s : State) : PortD × PortD := (s.d0, s.d1)

/-- A fold of operations that leave the D ports leaves them. -/
theorem foldl_ports {α : Type} (f : State → α → State) (h : ∀ s x, ports (f s x) = ports s)
    (xs : List α) (s : State) : ports (xs.foldl f s) = ports s := by
  induction xs generalizing s with
  | nil => rfl
  | cons x xs ih => rw [List.foldl_cons, ih, h]

@[simp] theorem setCtx_ports (s : State) (a : Arm) (c : ArmCtx) : ports (s.setCtx a c) = ports s := rfl

@[simp] theorem modCtx_ports (s : State) (a : Arm) (f : ArmCtx → ArmCtx) :
    ports (s.modCtx a f) = ports s := rfl

@[simp] theorem setClose_ports (s : State) (a : Arm) (c : CloseRun) :
    ports (s.setClose a c) = ports s := rfl

@[simp] theorem setMeterRun_ports (s : State) (i : Slot) (r : MeterRun) :
    ports (s.setMeterRun i r) = ports s := rfl

@[simp] theorem setChan_ports (s : State) (a : Arm) (st : Stream) (c : ValveChan) :
    ports (s.setChan a st c) = ports s := by cases st <;> rfl

@[simp] theorem setWatch_ports (s : State) (a : Arm) (b : Bool) : ports (s.setWatch a b) = ports s := rfl

@[simp] theorem setGrant_ports (s : State) (a : Arm) (g : Grant) : ports (s.setGrant a g) = ports s := rfl

@[simp] theorem setInjRun_ports (s : State) (c : Channel) (r : InjRun) :
    ports (s.setInjRun c r) = ports s := rfl

@[simp] theorem setPhase_ports (a : Arm) (p : ArmPhase) (s : State) :
    ports (setPhase a p s) = ports s := rfl

@[simp] theorem setFaultCode_ports (a : Arm) (k : AlertKind) (s : State) :
    ports (setFaultCode a k s) = ports s := rfl

@[simp] theorem modLine_ports (a : Arm) (c : Channel) (f : LineState → LineState) (s : State) :
    ports (modLine a c f s) = ports s := rfl

@[simp] theorem raiseAlert_ports (k : AlertKind) (j : Subject) (s : State) :
    ports (raiseAlert k j s) = ports s := by
  obtain ⟨r, h, -, -⟩ := raiseAlert_rest k j s
  rw [h]
  rfl

@[simp] theorem callPass_ports (s : State) : ports (callPass s) = ports s := by
  simp only [callPass]
  split <;> rfl

@[simp] theorem startSpacing_ports (s : State) : ports (startSpacing s) = ports s := by
  simp only [startSpacing]
  split <;> rfl

@[simp] theorem refigureArm_ports (s : State) (a : Arm) : ports (refigureArm s a) = ports s := by
  simp only [refigureArm]
  split <;> rfl

@[simp] theorem setEffective_ports (v : Nat) (s : State) : ports (setEffective v s) = ports s :=
  foldl_ports _ refigureArm_ports _ _

@[simp] theorem afterRelease_ports (s : State) : ports (afterRelease s) = ports s := by
  simp only [afterRelease]
  (repeat' split) <;> simp

@[simp] theorem releaseShares_ports (a : Arm) (s : State) : ports (releaseShares a s) = ports s := by
  simp [releaseShares]

@[simp] theorem startSilence_ports (a : Arm) (s : State) : ports (startSilence a s) = ports s :=
  foldl_ports _ (by intro s i; dsimp only; split <;> rfl) _ _

@[simp] theorem stopSilence_ports (a : Arm) (s : State) : ports (stopSilence a s) = ports s :=
  foldl_ports _ (by intro s i; rfl) _ _

@[simp] theorem clearHeadRaised_ports (a : Arm) (s : State) : ports (clearHeadRaised a s) = ports s :=
  foldl_ports _ (by intro s i; dsimp only; split <;> rfl) _ _

@[simp] theorem enterDone_ports (a : Arm) (why : EndReason) (s : State) :
    ports (enterDone a why s) = ports s := by
  simp only [enterDone]
  split <;> rfl

@[simp] theorem leaveQueue_ports (a : Arm) (s : State) : ports (leaveQueue a s) = ports s :=
  callPass_ports _

@[simp] theorem enterWaiting_ports (a : Arm) (s : State) : ports (enterWaiting a s) = ports s :=
  callPass_ports _

@[simp] theorem recheckSettled_ports (a : Arm) (s : State) : ports (recheckSettled a s) = ports s := by
  simp only [recheckSettled]
  split <;> rfl

@[simp] theorem shedLine_ports (a : Arm) (s : State) (l : LineState) :
    ports (shedLine a s l) = ports s := by
  simp only [shedLine]
  (repeat' split) <;> rfl

@[simp] theorem uncountStrokes_ports (a : Arm) (s : State) : ports (uncountStrokes a s) = ports s :=
  foldl_ports _ (by intro s c; simp only [uncountStroke]; (repeat' split) <;> rfl) _ _

@[simp] theorem dropOwed_ports (c : Channel) (s : State) (o : Bool) :
    ports (dropOwed c s o) = ports s := by
  simp only [dropOwed]
  split <;> rfl

/-! ### Orders that join -/

/-- A queue after orders have joined it: what stood in it comes first, and it is within its size if it
was before (R12). -/
def Filled (xs ys : List NormalFrame) : Prop :=
  xs <+: ys ∧ (xs.length ≤ Config.normalSize → ys.length ≤ Config.normalSize)

theorem Filled.refl (xs : List NormalFrame) : Filled xs xs := ⟨List.prefix_refl xs, id⟩

theorem Filled.trans {xs ys zs : List NormalFrame} (h : Filled xs ys) (g : Filled ys zs) :
    Filled xs zs := ⟨h.1.trans g.1, g.2 ∘ h.2⟩

/-- From s to t orders have joined the normal queues, within their sizes. -/
def Fills (s t : State) : Prop := Filled s.d0.normal t.d0.normal ∧ Filled s.d1.normal t.d1.normal

theorem Fills.trans {s t u : State} (h : Fills s t) (g : Fills t u) : Fills s u :=
  ⟨h.1.trans g.1, h.2.trans g.2⟩

theorem Fills.of_ports {s t : State} (h : ports t = ports s) : Fills s t := by
  have h0 : t.d0 = s.d0 := congrArg Prod.fst h
  have h1 : t.d1 = s.d1 := congrArg Prod.snd h
  unfold Fills
  rw [h0, h1]
  exact ⟨.refl _, .refl _⟩

theorem Fills.refl (s : State) : Fills s s := .of_ports rfl

/-- What leaves the D ports may come first. -/
theorem Fills.after {s t u : State} (h : ports t = ports s) (g : Fills t u) : Fills s u :=
  (Fills.of_ports h).trans g

/-- What leaves the D ports may come last. -/
theorem Fills.before {s t u : State} (h : ports u = ports t) (g : Fills s t) : Fills s u :=
  g.trans (.of_ports h)

theorem foldl_fills {α : Type} (f : State → α → State) (h : ∀ s x, Fills s (f s x)) (xs : List α)
    (s : State) : Fills s (xs.foldl f s) := by
  induction xs generalizing s with
  | nil => exact .refl s
  | cons x xs ih => exact (h s x).trans (ih _)

/-- A frame joins a queue that has room. -/
theorem joinNormal_fills {s : State} {p : DPort} (f : NormalFrame) (h : normalRoom s p = true) :
    Fills s (joinNormal p f s) := by
  have room : (s.portD p).normal.length < Config.normalSize := of_decide_eq_true h
  have filled : Filled (s.portD p).normal ((s.portD p).normal ++ [f]) :=
    ⟨List.prefix_append _ _, fun _ => by rw [List.length_append]; exact room⟩
  cases p with
  | d0 => exact ⟨filled, .refl _⟩
  | d1 => exact ⟨.refl _, filled⟩

theorem sendValveOrder_fills (a : Arm) (st : Stream) (d : Nat) (n : Byte) {p : DPort} {s : State}
    (h : normalRoom s p = true) : Fills s (sendValveOrder a st d n p s) :=
  .before (setChan_ports ..) (joinNormal_fills _ h)

theorem sendStroke_fills (c : Channel) (o : Bool) (n : Byte) {p : DPort} {s : State}
    (h : normalRoom s p = true) : Fills s (sendStroke c o n p s) :=
  .before (setInjRun_ports ..) (joinNormal_fills _ h)

/-! ### Evaluations -/

theorem placeOrder_fills (a : Arm) (st : Stream) (d : Nat) (s : State) :
    Fills s (placeOrder a st d s) := by
  simp only [placeOrder]
  split
  · exact .of_ports (setChan_ports ..)
  · split
    · exact sendValveOrder_fills _ _ _ _ ‹_›
    · exact .of_ports (setChan_ports ..)

theorem handDemand_fills (a : Arm) (st : Stream) (d : Nat) (s : State) :
    Fills s (handDemand a st d s) := by
  simp only [handDemand]
  split
  · exact .of_ports (setChan_ports ..)
  · split
    · exact .of_ports (setChan_ports ..)
    · split
      · exact .refl s
      · exact placeOrder_fills ..

theorem handDemands_fills (a : Arm) (s : State) : Fills s (handDemands a s) := by
  simp only [handDemands]
  split
  · exact handDemand_fills ..
  · exact (handDemand_fills ..).trans (handDemand_fills ..)

theorem capEval_fills (a : Arm) (s : State) : Fills s (capEval a s) :=
  .after (modCtx_ports ..) (handDemands_fills ..)

theorem capEvalIfFlowing_fills (a : Arm) (s : State) : Fills s (capEvalIfFlowing a s) := by
  simp only [capEvalIfFlowing]
  split
  · exact capEval_fills a s
  · exact .refl s

theorem restEval_fills (a : Arm) (s : State) : Fills s (restEval a s) :=
  .after (modCtx_ports ..) (handDemands_fills ..)

/-! ### Strokes -/

theorem serveChannel_fills (c : Channel) (s : State) : Fills s (serveChannel c s) := by
  simp only [serveChannel]
  split
  · exact .refl s
  · split
    · split
      · exact sendStroke_fills _ _ _ ‹_›
      · exact .of_ports (setInjRun_ports ..)
    · exact .refl s

theorem judgePace_fills (a : Arm) (s : State) : Fills s (judgePace a s) := by
  simp only [judgePace]
  split
  · exact .refl s
  · exact .after (modCtx_ports ..) (capEvalIfFlowing_fills ..)

theorem judgeOutlet_fills (c : Channel) (r : InjRun) (s : State) (o : Bool) :
    Fills s (judgeOutlet c r s o) := by
  simp only [judgeOutlet]
  split
  · split
    · exact .refl s
    · exact judgePace_fills ..
  · exact .refl s

theorem placeStrokes_fills (a : Arm) (p : ArmPhase) (l : LineState) (k : Nat) (s : State) :
    Fills s (placeStrokes a p l k s) := by
  simp only [placeStrokes]
  split
  · refine .trans (.of_ports ?_) ((serveChannel_fills ..).trans (judgePace_fills ..))
    split <;> simp
  · exact .of_ports (modLine_ports ..)

theorem strokesFall_fills (a : Arm) (p : ArmPhase) (s : State) : Fills s (strokesFall a p s) :=
  foldl_fills _ (by
    intro s l
    simp only [lineDue]
    split
    · exact .after (modLine_ports ..) (placeStrokes_fills ..)
    · exact .refl s) _ _

theorem shedStrokes_fills (a : Arm) (s : State) : Fills s (shedStrokes a s) :=
  .after (foldl_ports _ (shedLine_ports a) _ _) (judgePace_fills ..)

/-! ### Closes and faults -/

theorem leaveClosing_fills (a : Arm) (s : State) : Fills s (leaveClosing a s) := by
  simp only [leaveClosing]
  refine .before (stopSilence_ports ..) (.before (releaseShares_ports ..) ?_)
  exact .after (by simp) (shedStrokes_fills ..)

theorem completeClose_fills (a : Arm) (s : State) : Fills s (completeClose a s) := by
  simp only [completeClose]
  split
  · exact .before (enterDone_ports ..) (leaveClosing_fills a s)
  · exact .before (enterDone_ports ..) (leaveClosing_fills a s)
  · exact .before (setPhase_ports ..) (leaveClosing_fills a s)
  · exact .before (setPhase_ports ..) (leaveClosing_fills a s)
  · exact .refl s

theorem judgeClose_fills (a : Arm) (s : State) : Fills s (judgeClose a s) := by
  simp only [judgeClose]
  split
  · exact completeClose_fills a s
  · exact .refl s

theorem enterClosing_fills (a : Arm) (why : CloseReason) (s : State) :
    Fills s (enterClosing a why s) := by
  simp only [enterClosing]
  refine .trans (.of_ports ?_) ((restEval_fills ..).trans (judgeClose_fills ..))
  split <;> simp [cancelYield, beginClose]

theorem faultEffect_fills (a : Arm) (k : AlertKind) (s : State) : Fills s (faultEffect a k s) := by
  have closes := Fills.after (setFaultCode_ports a k s) (enterClosing_fills a .fault _)
  simp only [faultEffect]
  split
  any_goals with_reducible exact .refl s
  any_goals with_reducible exact closes
  · split
    · exact .refl s
    · exact .of_ports (by simp)
  · exact .of_ports (by simp)

theorem faultArm_fills (a : Arm) (k : AlertKind) (s : State) : Fills s (faultArm a k s) :=
  .after (raiseAlert_ports ..) (faultEffect_fills ..)

theorem faultRunning_fills (arms : Byte) (k : AlertKind) (s : State) :
    Fills s (faultRunning arms k s) :=
  foldl_fills _ (by
    intro s a
    split
    · exact faultArm_fills ..
    · exact .refl s) _ _

/-! ### Phases and passes -/

theorem phaseCheck_fills (a : Arm) (s : State) : Fills s (phaseCheck a s) := by
  simp only [phaseCheck]
  split
  · split
    · exact enterClosing_fills ..
    · exact .after (setPhase_ports ..) (capEval_fills ..)
    · exact .refl s
  · exact .refl s

theorem checkAdditives_fills (a : Arm) (s : State) : Fills s (checkAdditives a s) := by
  simp only [checkAdditives]
  split
  · exact faultArm_fills ..
  · exact .refl s

theorem enterStarting_fills (a : Arm) (s : State) : Fills s (enterStarting a s) := by
  have clear : ports (setPhase a .starting (clearHeadRaised a (startSilence a s))) = ports s := by
    simp
  exact .after clear
    ((capEval_fills ..).trans ((checkAdditives_fills ..).trans (phaseCheck_fills ..)))

theorem sampleEval_fills (a : Arm) (s : State) : Fills s (sampleEval a s) := by
  simp only [sampleEval]
  split
  · exact .after (setCtx_ports ..) (faultArm_fills ..)
  · exact .after (setCtx_ports ..) (handDemands_fills ..)

theorem evalForSample_fills (a : Arm) (s : State) : Fills s (evalForSample a s) := by
  simp only [evalForSample]
  split
  · exact sampleEval_fills a s
  · split
    · exact restEval_fills a s
    · exact .refl s

theorem evalAndPhase_fills (b : Bool) (a : Arm) (s : State) : Fills s (evalAndPhase b a s) := by
  simp only [evalAndPhase]
  split
  · exact (phaseCheck_fills ..).trans (evalForSample_fills ..)
  · exact (evalForSample_fills ..).trans (phaseCheck_fills ..)

theorem askYield_fills (a : Arm) (s : State) : Fills s (askYield a s) := by
  have asked := Fills.after (setGrant_ports s a { s.grantOf a with yieldPending := true })
    (capEval_fills a _)
  simp only [askYield]
  split
  · exact .before rfl asked
  · exact .before (setWatch_ports ..) asked

theorem askUntil_fills (need : Nat) (xs : List Arm) (s : State) : Fills s (askUntil need xs s) := by
  induction xs generalizing s with
  | nil => exact .refl s
  | cons x xs ih =>
    simp only [askUntil]
    split
    · exact .refl s
    · exact (askYield_fills ..).trans (ih _)

theorem yieldsFor_fills (h : Arm) (s : State) : Fills s (yieldsFor h s) := by
  simp only [yieldsFor]
  split
  · exact askUntil_fills ..
  · exact .refl s

theorem grantHead_fills (h : Arm) (s : State) : Fills s (grantHead h s) := by
  simp only [grantHead]
  exact .after (by rfl) (enterStarting_fills ..)

theorem topUp_fills (s : State) (a : Arm) : Fills s (topUp s a) := by
  simp only [topUp]
  split
  · exact .refl s
  · exact .after (setGrant_ports ..) (capEval_fills ..)

theorem serveQueue_fills (n : Nat) (s : State) : Fills s (serveQueue n s) := by
  induction n generalizing s with
  | zero => exact .refl s
  | succ n ih =>
    simp only [serveQueue]
    split
    · exact foldl_fills _ topUp_fills _ _
    · rename_i h _ _
      have granted := Fills.after (startSpacing_ports s) (grantHead_fills h _)
      split
      · split
        · exact granted.trans (ih _)
        · exact granted
      · exact yieldsFor_fills ..

theorem makePass_fills (s : State) : Fills s (makePass s) := by
  simp only [makePass]
  split
  · exact .of_ports rfl
  · exact .after (by rfl) (serveQueue_fills ..)

theorem beginFlow_fills (a : Arm) (s : State) : Fills s (beginFlow a s) := by
  simp only [beginFlow]
  split
  · exact enterStarting_fills a s
  · exact .of_ports (enterWaiting_ports ..)

theorem changeCapacity_fills (v : Nat) (s : State) : Fills s (changeCapacity v s) := by
  simp only [changeCapacity]
  split
  · exact .of_ports (by simp)
  · exact .after (by rfl) (foldl_fills _ (fun s a => askYield_fills a s) _ _)

theorem isolate_fills (c : Channel) (s : State) : Fills s (isolate c s) := by
  simp only [isolate]
  refine .trans ?_ (foldl_fills _ (judgeOutlet_fills c _) _ _)
  refine .trans (.of_ports ?_) (foldl_fills _ ?_ _ _)
  · rw [raiseAlert_ports, foldl_ports _ (dropOwed_ports c)]
    rfl
  · intro s a
    split
    · exact faultArm_fills ..
    · exact .refl s

end Sys2Proof.Machine

/-! ## Offers of a freed slot (R13) and departures (R105, R136) -/

namespace Sys2Proof.Machine

/-! ### Orders as frames of a normal queue -/

/-- A VALVE ORDER placed joins the tail of its port's normal queue. -/
theorem portD_sendValveOrder (a : Arm) (st : Stream) (d : Nat) (n : Byte) (p : DPort) (s : State) :
    (sendValveOrder a st d n p s).portD p = { s.portD p with normal := (s.portD p).normal ++
      [{ frame := mkFrame n s.mgmt.ownAddr kindValveOrder (s.chan a st).nextSeq (be 2 d),
         owner := .valveOrder a st }] } := by
  cases p <;> cases st <;> rfl

/-- A STROKE ORDER placed joins the tail of its port's normal queue. -/
theorem portD_sendStroke (c : Channel) (o : Bool) (n : Byte) (p : DPort) (s : State) :
    (sendStroke c o n p s).portD p = { s.portD p with normal := (s.portD p).normal ++
      [{ frame := mkFrame n s.mgmt.ownAddr kindStrokeOrder (s.injRun c).nextSeq
           [if o then 1#8 else 0#8],
         owner := .strokeOrder c }] } := by
  cases p <;> rfl

/-! ### What an offer leaves -/

/-- What an offer of a slot of port p leaves: all but that port, the valve channels and the injector run
states. -/
def offerFrame (p : DPort) (s : State) :=
  (((s.mgmt, s.portU, s.relay, s.meter), (s.arms, s.header, s.stop, s.rep)),
   ((s.reg.watch, s.reg.reports, s.inj.table, s.inj.reports), (s.pending, s.free, s.portD (otherD p))))

theorem setChan_offerFrame (p : DPort) (s : State) (a : Arm) (st : Stream) (c : ValveChan) :
    offerFrame p (s.setChan a st c) = offerFrame p s := by
  cases p <;> cases st <;> rfl

theorem setInjRun_offerFrame (p : DPort) (s : State) (c : Channel) (r : InjRun) :
    offerFrame p (s.setInjRun c r) = offerFrame p s := by
  cases p <;> rfl

theorem setPortD_offerFrame (p : DPort) (s : State) (x : PortD) :
    offerFrame p (s.setPortD p x) = offerFrame p s := by
  cases p <;> rfl

theorem sendValveOrder_offerFrame (a : Arm) (st : Stream) (d : Nat) (n : Byte) (p : DPort) (s : State) :
    offerFrame p (sendValveOrder a st d n p s) = offerFrame p s := by
  simp only [sendValveOrder, setChan_offerFrame, joinNormal, setPortD_offerFrame]

theorem sendStroke_offerFrame (c : Channel) (o : Bool) (n : Byte) (p : DPort) (s : State) :
    offerFrame p (sendStroke c o n p s) = offerFrame p s := by
  simp only [sendStroke, setInjRun_offerFrame, joinNormal, setPortD_offerFrame]

theorem offerTo_offerFrame (p : DPort) (w : Waiter) (s : State) :
    offerFrame p (offerTo p w s).1 = offerFrame p s := by
  cases w with
  | valve a st =>
    simp only [offerTo, offerToValve]
    (repeat' split) <;> simp only [setChan_offerFrame, sendValveOrder_offerFrame]
  | injector c =>
    simp only [offerTo, offerToInjector]
    (repeat' split) <;> simp only [setInjRun_offerFrame, sendStroke_offerFrame]

/-- An offer leaves a valve channel that waits for no slot of the port. -/
theorem offerTo_chan {p : DPort} {s : State} {a : Arm} {st : Stream} (w : Waiter)
    (h : (s.chan a st).pendingSlot ≠ some p) : (offerTo p w s).1.chan a st = s.chan a st := by
  cases w with
  | valve b su =>
    simp only [offerTo, offerToValve]
    split
    · rfl
    · rename_i waits
      have ne : b ≠ a ∨ su ≠ st := by
        by_cases same : b = a
        · exact .inr (fun e => waits (by rw [same, e]; exact h))
        · exact .inl same
      have joined (d : Nat) (n : Byte) :
          (sendValveOrder b su d n p s).chan a st = s.chan a st := by
        simp only [sendValveOrder]
        rw [chan_setChan_ne _ _ _ _ _ _ ne]
        cases p <;> cases st <;> rfl
      (repeat' split) <;> simp only [chan_setChan_ne _ _ _ _ _ _ ne, joined]
  | injector c =>
    have kept (t : State) (r : InjRun) : (t.setInjRun c r).chan a st = t.chan a st := by
      cases st <;> rfl
    have joined (o : Bool) (n : Byte) : (sendStroke c o n p s).chan a st = s.chan a st := by
      simp only [sendStroke, kept]
      cases p <;> cases st <;> rfl
    simp only [offerTo, offerToInjector]
    (repeat' split) <;> simp only [kept, joined]

/-- An offer leaves an injector channel that waits for no slot of the port. -/
theorem offerTo_injRun {p : DPort} {s : State} {c : Channel} (w : Waiter)
    (h : (s.injRun c).strokeReady ≠ some p) : (offerTo p w s).1.injRun c = s.injRun c := by
  cases w with
  | valve a st =>
    have kept (t : State) (x : ValveChan) : (t.setChan a st x).injRun c = t.injRun c := by
      cases st <;> rfl
    have joined (d : Nat) (n : Byte) : (sendValveOrder a st d n p s).injRun c = s.injRun c := by
      simp only [sendValveOrder, kept]
      cases p <;> rfl
    simp only [offerTo, offerToValve]
    (repeat' split) <;> simp only [kept, joined]
  | injector e =>
    simp only [offerTo, offerToInjector]
    split
    · rfl
    · have ne : e ≠ c := by rintro rfl; contradiction
      have joined (o : Bool) (n : Byte) : (sendStroke e o n p s).injRun c = s.injRun c := by
        simp only [sendStroke]
        rw [injRun_setInjRun_ne _ _ _ _ ne]
        cases p <;> rfl
      (repeat' split) <;> simp only [injRun_setInjRun_ne _ _ _ _ ne, joined]

/-! ### The order of a waiter -/

theorem station_setChan (s : State) (a b : Arm) (st su : Stream) (c : ValveChan) :
    station (s.setChan a st c) b su = station s b su := by
  cases st <;> rfl

theorem headBinding_setChan (s : State) (a : Arm) (st : Stream) (c : ValveChan) (e : Channel) :
    headBinding (s.setChan a st c) e = headBinding s e := by
  cases st <;> rfl

theorem injRun_setChan (s : State) (a : Arm) (st : Stream) (c : ValveChan) (e : Channel) :
    (s.setChan a st c).injRun e = s.injRun e := by
  cases st <;> rfl

theorem injRec_setChan (s : State) (a : Arm) (st : Stream) (c : ValveChan) (e : Channel) :
    (s.setChan a st c).injRec e = s.injRec e := by
  cases st <;> rfl

/-- A change of a valve channel leaves the orders of the other waiters. -/
theorem orderOf_setChan_ne (s : State) (p : DPort) {a : Arm} {st : Stream} (c : ValveChan) {w : Waiter}
    (h : w ≠ .valve a st) : orderOf (s.setChan a st c) p w = orderOf s p w := by
  cases w with
  | valve b su =>
    have ne : a ≠ b ∨ st ≠ su := by
      by_cases same : a = b
      · exact .inr (fun e => h (by rw [same, e]))
      · exact .inl same
    simp only [orderOf, chan_setChan_ne _ _ _ _ _ _ ne, station_setChan, setChan_mgmt]
  | injector e =>
    simp only [orderOf, injRun_setChan, injRec_setChan, headBinding_setChan, setChan_mgmt]

/-- A change of an injector run state leaves the orders of the other waiters. -/
theorem orderOf_setInjRun_ne (s : State) (p : DPort) {c : Channel} (r : InjRun) {w : Waiter}
    (h : w ≠ .injector c) : orderOf (s.setInjRun c r) p w = orderOf s p w := by
  cases w with
  | valve b su => rfl
  | injector e =>
    have ne : c ≠ e := by rintro rfl; exact h rfl
    simp only [orderOf, injRun_setInjRun_ne _ _ _ _ ne]
    rfl

/-- A change of a valve channel that leaves the order it would place leaves every waiter's order. -/
theorem orderOf_setChan {s : State} {p : DPort} {a : Arm} {st : Stream} {c : ValveChan}
    (h : orderOf (s.setChan a st c) p (.valve a st) = orderOf s p (.valve a st)) :
    orderOf (s.setChan a st c) p = orderOf s p := by
  funext w
  by_cases e : w = .valve a st
  · rw [e, h]
  · exact orderOf_setChan_ne s p c e

theorem orderOf_setInjRun {s : State} {p : DPort} {c : Channel} {r : InjRun}
    (h : orderOf (s.setInjRun c r) p (.injector c) = orderOf s p (.injector c)) :
    orderOf (s.setInjRun c r) p = orderOf s p := by
  funext w
  by_cases e : w = .injector c
  · rw [e, h]
  · exact orderOf_setInjRun_ne s p r e

/-- A valve channel that waits for no slot places nothing. -/
theorem orderOf_valve_idle {s : State} {p : DPort} {a : Arm} {st : Stream}
    (h : (s.chan a st).pendingSlot ≠ some p) : orderOf s p (.valve a st) = none := by
  simp only [orderOf, h, false_and, if_false]
  split <;> rfl

theorem orderOf_injector_idle {s : State} {p : DPort} {c : Channel}
    (h : (s.injRun c).strokeReady ≠ some p) : orderOf s p (.injector c) = none := by
  simp only [orderOf, h, false_and, if_false]
  split <;> rfl

/-! ### An offer is taken or declined -/

/-- A waiter that has an order for the port takes the slot, and its order joins the tail. -/
theorem offerTo_takes {s : State} {p : DPort} {w : Waiter} {f : NormalFrame}
    (h : orderOf s p w = some f) :
    (offerTo p w s).2 = true ∧
      (offerTo p w s).1.portD p = { s.portD p with normal := (s.portD p).normal ++ [f] } := by
  cases w with
  | valve a st =>
    simp only [orderOf] at h
    split at h
    · rename_i d n e hl hs
      split at h
      · rename_i hc
        cases h
        simp only [offerTo, offerToValve, hc.1, ne_eq, not_true_eq_false, if_false, hl, hs, hc.2, if_true,
          portD_sendValveOrder, and_self]
      · cases h
    · cases h
  | injector c =>
    simp only [orderOf] at h
    split at h
    · rename_i o n e hl hs
      split at h
      · rename_i hc
        obtain ⟨ready, available, port⟩ := hc
        cases h
        simp only [offerTo, offerToInjector, ready, ne_eq, not_true_eq_false, if_false, hl, hs, available,
          port, and_self, if_true, portD_sendStroke]
      · cases h
    · cases h

/-- A waiter without an order for the port declines: the ports stay, and the others' orders with them. -/
theorem offerTo_declines {s : State} {p : DPort} {w : Waiter} (h : orderOf s p w = none) :
    (offerTo p w s).2 = false ∧ ports (offerTo p w s).1 = ports s ∧
      orderOf (offerTo p w s).1 p = orderOf s p := by
  cases w with
  | valve a st =>
    have cleared (c : ValveChan) (hc : c.pendingSlot = none) :
        orderOf (s.setChan a st c) p = orderOf s p :=
      orderOf_setChan (by rw [h, orderOf_valve_idle (by simp [hc])])
    simp only [offerTo, offerToValve]
    split
    · exact ⟨rfl, rfl, rfl⟩
    · split
      · exact ⟨rfl, setChan_ports .., cleared _ rfl⟩
      · exact ⟨rfl, setChan_ports .., cleared _ rfl⟩
      · split
        · simp_all [orderOf]
        · exact ⟨rfl, setChan_ports .., cleared _ rfl⟩
  | injector c =>
    have cleared (r : InjRun) (hr : r.strokeReady = none) :
        orderOf (s.setInjRun c r) p = orderOf s p :=
      orderOf_setInjRun (by rw [h, orderOf_injector_idle (by simp [hr])])
    simp only [offerTo, offerToInjector]
    split
    · exact ⟨rfl, rfl, rfl⟩
    · split
      · split
        · simp_all [orderOf]
        · exact ⟨rfl, rfl, cleared _ rfl⟩
      · exact ⟨rfl, rfl, cleared _ rfl⟩

/-! ### The offer along the waiters -/

/-- The freed slot goes to the first waiter that has an order for the port, and stays free without
one. -/
theorem portD_offerAlong (p : DPort) (ws : List Waiter) (s : State) :
    (offerAlong p ws s).portD p = { s.portD p with
      normal := (s.portD p).normal ++ (ws.findSome? (orderOf s p)).toList } := by
  induction ws generalizing s with
  | nil => simp [offerAlong]
  | cons w ws ih =>
    cases h : orderOf s p w with
    | some f =>
      obtain ⟨taken, joined⟩ := offerTo_takes h
      have e : offerTo p w s = ((offerTo p w s).1, true) := by rw [← taken]
      rw [offerAlong, e]
      simp [h, joined]
    | none =>
      obtain ⟨declined, same, orders⟩ := offerTo_declines h
      have e : offerTo p w s = ((offerTo p w s).1, false) := by rw [← declined]
      have port : (offerTo p w s).1.portD p = s.portD p := by
        cases p
        · exact congrArg Prod.fst same
        · exact congrArg Prod.snd same
      rw [offerAlong, e]
      simp only [ih, List.findSome?_cons, h, orders, port]

/-- What every single offer keeps, the offer along the waiters keeps. -/
theorem offerAlong_keeps (P : State → Prop) {p : DPort} (h : ∀ w s, P s → P (offerTo p w s).1)
    (ws : List Waiter) {s : State} (hs : P s) : P (offerAlong p ws s) := by
  induction ws generalizing s with
  | nil => exact hs
  | cons w ws ih =>
    have first := h w s hs
    simp only [offerAlong]
    split
    · rename_i e
      rwa [e] at first
    · rename_i e
      rw [e] at first
      exact ih first

theorem offerSlot_offerFrame (p : DPort) (s : State) : offerFrame p (offerSlot p s) = offerFrame p s :=
  offerAlong_keeps (fun t => offerFrame p t = offerFrame p s)
    (fun w t ht => (offerTo_offerFrame p w t).trans ht) waiters rfl

theorem offerSlot_chan {p : DPort} {s : State} {a : Arm} {st : Stream}
    (h : (s.chan a st).pendingSlot ≠ some p) : (offerSlot p s).chan a st = s.chan a st :=
  offerAlong_keeps (fun t => t.chan a st = s.chan a st)
    (fun w t ht => (offerTo_chan w (by rwa [ht])).trans ht) waiters rfl

theorem offerSlot_injRun {p : DPort} {s : State} {c : Channel}
    (h : (s.injRun c).strokeReady ≠ some p) : (offerSlot p s).injRun c = s.injRun c :=
  offerAlong_keeps (fun t => t.injRun c = s.injRun c)
    (fun w t ht => (offerTo_injRun w (by rwa [ht])).trans ht) waiters rfl

/-! ### Departures -/

theorem departNormal_offerFrame (p : DPort) (f : NormalFrame) (s : State) :
    offerFrame p (departNormal f s) = offerFrame p s := by
  simp only [departNormal]
  split
  · rfl
  · simp only [departValveOrder]
    (repeat' split) <;> simp only [setChan_offerFrame]
  · simp only [departStroke]
    (repeat' split) <;> simp only [setInjRun_offerFrame]

theorem departNormal_ports (f : NormalFrame) (s : State) : ports (departNormal f s) = ports s := by
  simp only [departNormal]
  split
  · rfl
  · simp only [departValveOrder]
    (repeat' split) <;> simp
  · simp only [departStroke]
    (repeat' split) <;> simp

/-- The start of a timer changes no waiter's order. -/
theorem orderOf_departNormal (p : DPort) (f : NormalFrame) (s : State) :
    orderOf (departNormal f s) p = orderOf s p := by
  simp only [departNormal]
  split
  · rfl
  · rename_i a st _
    simp only [departValveOrder]
    split
    · split
      · apply orderOf_setChan
        simp only [orderOf, chan_setChan_same, station_setChan, setChan_mgmt]
      · rfl
    · rfl
  · rename_i c _
    simp only [departStroke]
    split
    · split
      · apply orderOf_setInjRun
        simp only [orderOf, injRun_setInjRun_same, injRec_setInjRun, setInjRun_mgmt]
        rfl
      · rfl
    · rfl

/-- The timer of a VALVE ORDER still in flight starts at its departure (R105). -/
theorem departNormal_valveOrder {f : NormalFrame} {s : State} {a : Arm} {st : Stream} {o : ValveFlight}
    (owner : f.owner = .valveOrder a st) (flight : (s.chan a st).inFlight = some o)
    (seq : o.seq = f.frame.seq) (waits : o.departed = false) :
    (departNormal f s).chan a st = { s.chan a st with inFlight := some { o with
      departed := true, timer := some s.mgmt.settings.responseLimit } } := by
  simp [departNormal, owner, departValveOrder, flight, seq, waits]

theorem departNormal_valveOrder_gone {f : NormalFrame} {s : State} {a : Arm} {st : Stream}
    (owner : f.owner = .valveOrder a st) (flight : (s.chan a st).inFlight = none) :
    departNormal f s = s := by
  simp [departNormal, owner, departValveOrder, flight]

/-- The timer of a STROKE ORDER whose stroke is still in flight starts at its departure (R136). -/
theorem departNormal_strokeOrder {f : NormalFrame} {s : State} {c : Channel} {k : StrokeFlight}
    (owner : f.owner = .strokeOrder c) (flight : (s.injRun c).inFlight = some k)
    (seq : k.seq = f.frame.seq) (waits : k.departed = false) :
    (departNormal f s).injRun c = { s.injRun c with inFlight := some { k with
      departed := true, timer := some (s.injRec c).timeLimit } } := by
  simp [departNormal, owner, departStroke, flight, seq, waits]

theorem departNormal_strokeOrder_gone {f : NormalFrame} {s : State} {c : Channel}
    (owner : f.owner = .strokeOrder c) (flight : (s.injRun c).inFlight = none) :
    departNormal f s = s := by
  simp [departNormal, owner, departStroke, flight]

/-- A port whose transmission of a normal frame has ended: the line is free, and so is the slot (R8, R13). -/
def freed (p : DPort) (rest : List NormalFrame) (s : State) : State :=
  s.setPortD p { s.portD p with sending := none, normal := rest }

/-- A departure from a normal queue frees the slot, starts the owner's timer and offers the slot. -/
theorem exec_departNormal {s : State} {p : DPort} {os : List Byte} {f : NormalFrame}
    {rest : List NormalFrame} (line : (s.portD p).sending = some { urgent := false, octets := os })
    (queue : (s.portD p).normal = f :: rest) :
    exec (.frameDeparture (portOfD p)) s = .next (offerSlot p (departNormal f (freed p rest s))) := by
  have act : departD p s = offerSlot p (departNormal f (freed p rest s)) := by
    simp [departD, line, queue, freed]
  rw [← act]
  cases p <;> rfl

theorem freed_offerFrame (p : DPort) (rest : List NormalFrame) (s : State) :
    offerFrame p (freed p rest s) = offerFrame p s := setPortD_offerFrame ..

theorem freed_chan (p : DPort) (rest : List NormalFrame) (s : State) (a : Arm) (st : Stream) :
    (freed p rest s).chan a st = s.chan a st := by
  cases p <;> cases st <;> rfl

theorem freed_injRun (p : DPort) (rest : List NormalFrame) (s : State) (c : Channel) :
    (freed p rest s).injRun c = s.injRun c := by
  cases p <;> rfl

theorem orderOf_freed (p : DPort) (rest : List NormalFrame) (s : State) :
    orderOf (freed p rest s) p = orderOf s p := by
  cases p <;> rfl

theorem portD_departed (p : DPort) (f : NormalFrame) (rest : List NormalFrame) (s : State) :
    (offerSlot p (departNormal f (freed p rest s))).portD p = { s.portD p with
      sending := none, normal := rest ++ (waiters.findSome? (orderOf s p)).toList } := by
  have port : (departNormal f (freed p rest s)).portD p = (freed p rest s).portD p := by
    have same := departNormal_ports f (freed p rest s)
    cases p
    · exact congrArg Prod.fst same
    · exact congrArg Prod.snd same
  rw [offerSlot, portD_offerAlong, port, orderOf_departNormal, orderOf_freed]
  simp [freed]

/-- Settles O17: the waiters' orders do not depend on those that decline before them, so the slot goes to the
first order there is; the departed order's channel waits for no slot and takes no part. -/
theorem departuresOfferTheSlotAndStartTimers : Obligations.DeparturesOfferTheSlotAndStartTimers := by
  unfold Obligations.DeparturesOfferTheSlotAndStartTimers
  intro s p os f rest line queue
  have frame : offerFrame p (offerSlot p (departNormal f (freed p rest s))) = offerFrame p s := by
    rw [offerSlot_offerFrame, departNormal_offerFrame, freed_offerFrame]
  simp only [offerFrame, Prod.mk.injEq] at frame
  obtain ⟨⟨⟨mgmt, portU, relay, meter⟩, arms, header, stop, rep⟩,
    ⟨watch, regReports, injTable, injReports⟩, pending, -, other⟩ := frame
  have settings : (freed p rest s).mgmt = s.mgmt := by cases p <;> rfl
  have timeLimits (c : Channel) : (freed p rest s).injRec c = s.injRec c := by cases p <;> rfl
  refine ⟨_, exec_departNormal line queue, portD_departed p f rest s, other, portU, arms, header, stop, rep,
    watch, meter, ⟨mgmt, relay, by rw [meter], by rw [arms], by rw [arms], by rw [header], injTable⟩,
    ⟨by rw [meter], by rw [arms], regReports, injReports, by rw [stop], pending⟩, ?_, ?_, ?_, ?_⟩
  · intro a st o owner flight slot seq waits
    have started := departNormal_valveOrder (s := freed p rest s) owner
      (by rw [freed_chan, flight]) seq waits
    rw [freed_chan, settings] at started
    rw [offerSlot_chan (by simp [started, slot]), started]
  · intro a st owner flight slot
    rw [departNormal_valveOrder_gone owner (by rw [freed_chan, flight]),
      offerSlot_chan (by simp [freed_chan, slot]), freed_chan]
  · intro c k owner flight ready seq waits
    have started := departNormal_strokeOrder (s := freed p rest s) owner
      (by rw [freed_injRun, flight]) seq waits
    rw [freed_injRun, timeLimits] at started
    rw [offerSlot_injRun (by simp [started, ready]), started]
  · intro c owner flight ready
    rw [departNormal_strokeOrder_gone owner (by rw [freed_injRun, flight]),
      offerSlot_injRun (by simp [freed_injRun, ready]), freed_injRun]

end Sys2Proof.Machine

/-! ## Port U: turns and requests (R5, R6, log 1) -/

namespace Sys2Proof.Machine

/-- The frames ahead of an item are waiting frames. -/
theorem mem_of_mem_aheadOf {x y : UItem} {xs : List UItem} (h : y ∈ aheadOf x xs) : y ∈ xs := by
  unfold aheadOf at h
  split at h
  · rcases List.mem_append.1 h with h | h <;> exact (List.mem_filter.1 h).1
  · exact (List.mem_filter.1 h).1
  · exact (List.mem_filter.1 h).1

/-- A waiting item stands itself among the frames it waits for. -/
theorem mem_aheadOf {x : UItem} {xs : List UItem} (h : x ∈ xs) : x ∈ aheadOf x xs := by
  unfold aheadOf
  split <;> simp [h, UItem.isRequest]

/-- An item that joins with none ahead of it is the next of its class. -/
theorem aheadOf_append_self {x : UItem} {xs : List UItem} (h : aheadOf x xs = []) :
    aheadOf x (xs ++ [x]) = [x] := by
  unfold aheadOf at h ⊢
  split at h
  · obtain ⟨relays, requests⟩ := List.append_eq_nil_iff.1 h
    simp only [List.filter_append, relays, requests]
    rfl
  · simp only [List.filter_append, h]
    rfl
  · simp only [List.filter_append, h]
    rfl

theorem dropItem_append_self {x : UItem} {xs : List UItem} (h : x ∉ xs) : dropItem x (xs ++ [x]) = xs := by
  induction xs with
  | nil => simp [dropItem]
  | cons y ys ih =>
    obtain ⟨ne, h⟩ := not_or.1 (mt List.mem_cons.2 h)
    simp [dropItem, Ne.symm ne, ih h]

theorem length_dropItem {α : Type} [DecidableEq α] {x : α} {xs : List α} (h : x ∈ xs) :
    (dropItem x xs).length + 1 = xs.length := by
  induction xs with
  | nil => cases h
  | cons y ys ih =>
    simp only [dropItem]
    split
    · rfl
    · rename_i ne
      have := ih ((List.mem_cons.1 h).resolve_left (Ne.symm ne))
      simp only [List.length_cons]
      omega

/-- An item that does not wait has no turn among those that do. -/
theorem turnIn_absent {x : UItem} {xs : List UItem} (h : x ∉ xs) : turnIn (aheadOf x xs) x = .absent := by
  have out : x ∉ aheadOf x xs := mt mem_of_mem_aheadOf h
  have head : (aheadOf x xs).head? ≠ some x := fun e => out (List.mem_of_head? e)
  simp [turnIn, head, out]

theorem slotFree_eq_true (s : State) :
    slotFree s = true ↔ s.portU.queue.length + s.portU.waiting.length < Config.queueUSize :=
  decide_eq_true_iff

/-- A frame that arrives with no slot to reserve is counted (R5, R6). -/
theorem takeU_full {s : State} {x : UItem} (act : State → State) (h : x ∉ s.portU.waiting)
    (full : Config.queueUSize ≤ s.portU.queue.length + s.portU.waiting.length) :
    takeU x act s = countDropped s := by
  have noSlot : ¬ slotFree s = true := by rw [slotFree_eq_true]; omega
  simp only [takeU, turnIn_absent h, if_neg noSlot]

/-- A frame that arrives with a slot joins those that wait. -/
theorem takeU_joins {s : State} {x : UItem} (act : State → State) (h : x ∉ s.portU.waiting)
    (room : s.portU.queue.length + s.portU.waiting.length < Config.queueUSize)
    (ahead : aheadOf x s.portU.waiting ≠ []) :
    takeU x act s = { s with portU := { s.portU with waiting := s.portU.waiting ++ [x] } } := by
  simp only [takeU, turnIn_absent h, if_pos ((slotFree_eq_true s).2 room),
    if_neg (mt List.isEmpty_iff.1 ahead)]

/-- A frame that arrives with none ahead of it is acted on. -/
theorem takeU_arrives {s : State} {x : UItem} (act : State → State) (h : x ∉ s.portU.waiting)
    (room : s.portU.queue.length + s.portU.waiting.length < Config.queueUSize)
    (ahead : aheadOf x s.portU.waiting = []) : takeU x act s = act s := by
  simp only [takeU, turnIn_absent h, if_pos ((slotFree_eq_true s).2 room),
    if_pos (List.isEmpty_iff.2 ahead)]

/-- To be acted on upon arrival is to have joined and to be next. -/
theorem takeU_arrives_as_waiting {s : State} {x : UItem} (act : State → State) (h : x ∉ s.portU.waiting)
    (room : s.portU.queue.length + s.portU.waiting.length < Config.queueUSize)
    (ahead : aheadOf x s.portU.waiting = []) :
    takeU x act s =
      takeU x act { s with portU := { s.portU with waiting := s.portU.waiting ++ [x] } } := by
  rw [takeU_arrives act h room ahead, takeU_next act (by simp [IsNext, aheadOf_append_self ahead])]
  simp only [State.take, dropItem_append_self h]

/-- Every frame of Port U is acted on by way of its turn. -/
theorem exec_commandOf (x : UItem) : ∃ act, ∀ s, exec (commandOf x) s = .next (takeU x act s) := by
  cases x with
  | relay f => exact ⟨_, fun s => rfl⟩
  | request h r => cases r <;> exact ⟨_, fun s => rfl⟩

/-! ### What a request is read from -/

theorem length_payload_readWrite (t : TableId) (p : List Byte) :
    (Request.payload (readWrite t p)).length = 2 + recordLength t := by
  cases t <;> rfl

theorem kindCode_readWrite (t : TableId) (p : List Byte) : Request.kindCode (readWrite t p) = 0x81 := by
  cases t <;> rfl

theorem readArmCommand_shape {p : List Byte} {r : Request} (h : readArmCommand p = some r) :
    Request.kindCode r = 0x82 ∧ (Request.payload r).length = 11 := by
  simp only [readArmCommand] at h
  split at h <;> cases h <;> exact ⟨rfl, rfl⟩

/-- A payload read as a request has the length that the request's own payload has, and its kind is the
request's (R5). -/
theorem readRequest_shape {kind : Byte} {p : List Byte} {r : Request} (h : readRequest kind p = some r) :
    0x80 ≤ kind.toNat ∧ kind.toNat ≤ 0x8B ∧ kind = Request.kindCode r ∧
      p.length = (Request.payload r).length := by
  have code {n : Nat} {b : Byte} (hk : kind.toNat = n) (hb : n = b.toNat) : kind = b :=
    BitVec.eq_of_toNat_eq (hk.trans hb)
  simp only [readRequest] at h
  split at h
  case h_1 hk =>
    split at h
    · obtain ⟨t, -, rfl⟩ := Option.map_eq_some_iff.1 h
      exact ⟨by omega, by omega, code hk rfl, by assumption⟩
    · cases h
  case h_2 hk =>
    split at h
    · split at h
      · rename_i len
        cases h
        exact ⟨by omega, by omega, by rw [kindCode_readWrite]; exact code hk rfl,
          by rw [length_payload_readWrite]; exact len⟩
      · cases h
    · cases h
  case h_3 hk =>
    split at h
    · rename_i len
      obtain ⟨isArm, size⟩ := readArmCommand_shape h
      exact ⟨by omega, by omega, by rw [isArm]; exact code hk rfl, by rw [size]; exact len⟩
    · cases h
  case h_13 => cases h
  all_goals
    rename_i hk
    split at h
    · rename_i len
      cases h
      exact ⟨by omega, by omega, code hk rfl, len⟩
    · cases h

/-- Settles O11: every frame of Port U goes through takeU, so its turn is decided there alone. -/
theorem framesAreAnsweredInTheirTurn : Obligations.FramesAreAnsweredInTheirTurn := by
  unfold Obligations.FramesAreAnsweredInTheirTurn
  refine ⟨?_, fun _ _ _ => readRequest_shape, ?_, ?_⟩
  · intro s x
    obtain ⟨act, run⟩ := exec_commandOf x
    simp only [run]
    refine ⟨fun waits behind => ?_, fun out full => ?_, fun out room ahead => ?_,
      fun out room ahead => ?_⟩
    · rw [takeU_later act (mem_aheadOf waits) behind]
    · rw [takeU_full act out full]
      rfl
    · rw [takeU_joins act out room ahead]
    · rw [takeU_arrives_as_waiting act out room ahead]
  · intro f h
    simp [parseRequest, h]
  · intro s h kind next
    exact congrArg Host.Outcome.next (takeU_next _ next)

/-! ## Frames the engine builds (R14, R169) -/

theorem u16_o16 (w : Word16) (xs : List Byte) : u16 (xs ++ o16 w) xs.length = w := by
  have octets : w.extractLsb' 8 8 ++ w.extractLsb' 0 8 = w := by
    ext i hi
    simp only [BitVec.getElem_append, BitVec.getElem_extractLsb']
    split
    · simp [BitVec.getLsbD_eq_getElem hi]
    · rename_i low
      have e : 8 + (i - 8) = i := by omega
      rw [e, BitVec.getLsbD_eq_getElem hi]
  simp [u16, octet, o16, octets]

/-- The octets of a frame with their count, CRC and fields. -/
theorem length_body (f : Frame) : (Frame.body f).length = 5 + f.payload.length := by
  simp [Frame.body]
  omega

theorem length_octets (f : Frame) : (Frame.octets f).length = 7 + f.payload.length := by
  simp [Frame.octets, length_body, o16]
  omega

/-- A frame with a payload that fits, its own CRC and a destination passes the receive checks and reads back
as itself (R2). -/
theorem checkUnit_octets {f : Frame} (fits : f.payload.length ≤ Config.maxPayload)
    (sealed : f.crc = crc (Frame.body f)) (dst : f.dst ≠ 0xFF) :
    checkUnit (Frame.octets f) (7 + f.payload.length) = .ok f := by
  have fits' : f.payload.length ≤ 56 := fits
  have last : (Frame.octets f).length - 2 = (Frame.body f).length := by
    rw [length_octets, length_body]
    omega
  have body : (Frame.octets f).take (Frame.body f).length = Frame.body f := by simp [Frame.octets]
  have crcRead : u16 (Frame.octets f) (Frame.body f).length = f.crc := u16_o16 _ _
  have len : (octet (Frame.octets f) 4).toNat = f.payload.length := by
    have : octet (Frame.octets f) 4 = BitVec.ofNat 8 f.payload.length := rfl
    rw [this, BitVec.toNat_ofNat]
    omega
  have payload : ((Frame.octets f).drop 5).take f.payload.length = f.payload := by
    simp [Frame.octets, Frame.body]
  unfold checkUnit
  rw [if_neg (by simp only [Config.minUnit, Config.maxUnit]; omega), last, body, crcRead,
    if_neg (by simp [sealed]), len, length_octets, if_neg (by simp only [Config.maxPayload]; omega),
    if_neg (by exact dst), payload]
  rfl

/-- The CRC is no part of what it covers. -/
theorem body_sealed (f : Frame) : Frame.body (Frame.sealed f) = Frame.body f := by
  simp only [Frame.sealed, Frame.body]

/-- A sealed frame carries the CRC of its own body (R14). -/
theorem crc_sealed (f : Frame) : (Frame.sealed f).crc = crc (Frame.body (Frame.sealed f)) := by
  rw [body_sealed, Frame.sealed]

/-- A value in two octets, or the largest that two octets hold (section 11.1). -/
theorem be_two (v : Nat) :
    be 2 v = [BitVec.ofNat 8 (min v 65535 / 256), BitVec.ofNat 8 (min v 65535)] := by
  simp [be, beExact]

/-- Settles O12: the frames are the model's own, written out; the last clause is checkUnit_octets. -/
theorem outgoingFramesAreAddressed : Obligations.OutgoingFramesAreAddressed := by
  unfold Obligations.OutgoingFramesAreAddressed
  refine ⟨fun h kind c s => rfl, fun s f => ⟨rfl, rfl, rfl, rfl, rfl, crc_sealed _⟩,
    fun own q n arms => ⟨rfl, rfl⟩, ?_, ?_, ?_⟩
  · intro s p n a st d
    simp only [portD_sendValveOrder, be_two]
    rfl
  · intro s p n c o
    simp only [portD_sendStroke]
    cases o <;> rfl
  · intro dst src kind seq payload fits hd
    exact checkUnit_octets (f := mkFrame dst src kind seq payload) fits (crc_sealed _) hd

/-! ## Receiving a unit (R1, R2) -/

/-- A framer that collects stores what it has room for, and tells whether there was more (R1). -/
theorem feedAll_collecting (stored os : List Byte) (grown : Bool) (h : stored.length ≤ 63) :
    feedAll (.collecting stored grown) os =
      .collecting ((stored ++ os).take 63) (grown || decide (63 < stored.length + os.length)) := by
  induction os generalizing stored grown with
  | nil => simp [feedAll, List.take_of_length_le h]; omega
  | cons b os ih =>
    have step : feedAll (.collecting stored grown) (b :: os) =
        feedAll (feed (.collecting stored grown) b) os := rfl
    rw [step, feed]
    split
    · rename_i room
      rw [ih _ _ (by rw [List.length_append]; exact room)]
      simp only [List.append_assoc, List.singleton_append, List.length_append, List.length_cons,
        List.length_nil, Nat.zero_add, Nat.add_assoc, Nat.add_comm 1]
    · rename_i full
      have full' : stored.length = 63 := by simp only [Config.maxUnit] at full; omega
      rw [ih _ _ h, List.take_append_of_le_length (by omega), List.take_append_of_le_length (by omega)]
      simp [full']

theorem setFramer_waiting {p : Port} {s : State} (h : framerOf s p = .waiting) :
    setFramer p .waiting s = s := by
  cases p <;> simp only [framerOf] at h <;> simp only [setFramer, ← h]

/-- The unit after a start octet is judged by its octets, as 64 when there are more than 63 (R1). -/
theorem exec_receiveUnit {p : Port} {s : State} (os : List Byte) (h : framerOf s p = .waiting) :
    exec (.receiveUnit p (0x7E :: os)) s =
      .next (judgeUnit p (os.take 63) (decide (63 < os.length)) s) := by
  have unit : feedAll (framerOf s p) (0x7E :: os) =
      .collecting (os.take 63) (decide (63 < os.length)) := by
    rw [h]
    have start : feedAll .waiting (0x7E :: os) = feedAll (.collecting [] false) os := rfl
    rw [start, feedAll_collecting _ _ _ (by simp)]
    simp
  change Host.Outcome.next (receiveUnitAct p (0x7E :: os) s) = _
  rw [receiveUnitAct, unit]
  simp only [setFramer_waiting h]

end Sys2Proof.Machine

namespace Sys2Proof.Machine

/-- A unit of 63 octets at most is judged as it stands. -/
theorem exec_receiveUnit_stored {p : Port} {s : State} {os : List Byte} (h : framerOf s p = .waiting)
    (size : os.length ≤ 63) :
    exec (.receiveUnit p (0x7E :: os)) s = .next (judgeUnit p os false s) := by
  rw [exec_receiveUnit os h, List.take_of_length_le size, decide_eq_false (by omega)]

/-! ### The four checks in their order (R2) -/

theorem checkUnit_badSize (os : List Byte) {size : Nat} (h : size < 7 ∨ 63 < size) :
    checkUnit os size = .error .formatError := if_pos h

section
variable {os : List Byte} {size : Nat} (fits : ¬ (size < Config.minUnit ∨ Config.maxUnit < size))
include fits

theorem checkUnit_badCrc (h : ¬ crc (os.take (os.length - 2)) = u16 os (os.length - 2)) :
    checkUnit os size = .error .crcError := by
  rw [checkUnit, if_neg fits, if_pos h]

variable (crcHolds : crc (os.take (os.length - 2)) = u16 os (os.length - 2))
include crcHolds

theorem checkUnit_badLength
    (h : ¬ ((octet os 4).toNat ≤ 56 ∧ os.length = 7 + (octet os 4).toNat)) :
    checkUnit os size = .error .formatError := by
  rw [checkUnit, if_neg fits, if_neg (Classical.not_not.2 crcHolds),
    if_pos (by simp only [Config.maxPayload]; omega)]

variable (lengthHolds : (octet os 4).toNat ≤ 56 ∧ os.length = 7 + (octet os 4).toNat)
include lengthHolds

theorem checkUnit_nobody (h : octet os 0 = 0xFF#8) : checkUnit os size = .error .formatError := by
  rw [checkUnit, if_neg fits, if_neg (Classical.not_not.2 crcHolds),
    if_neg (by simp only [Config.maxPayload]; omega), if_pos h]

theorem checkUnit_passes (h : octet os 0 ≠ 0xFF#8) :
    checkUnit os size = .ok
      { dst := octet os 0, src := octet os 1, kind := octet os 2, seq := octet os 3,
        payload := (os.drop 5).take (octet os 4).toNat, crc := u16 os (os.length - 2) } := by
  rw [checkUnit, if_neg fits, if_neg (Classical.not_not.2 crcHolds),
    if_neg (by simp only [Config.maxPayload]; omega), if_neg h]

end

theorem judgeUnit_error {p : Port} {os : List Byte} {grown : Bool} (s : State) {e : UnitError}
    (h : checkUnit os (if grown then 64 else os.length) = .error e) :
    judgeUnit p os grown s =
      countPort p (match e with | .crcError => .crcErrors | .formatError => .formatErrors) s := by
  cases e <;> simp only [judgeUnit, h]

theorem judgeUnit_ok {p : Port} {os : List Byte} {grown : Bool} (s : State) {f : Frame}
    (h : checkUnit os (if grown then 64 else os.length) = .ok f) :
    judgeUnit p os grown s = receiveFrame p f s := by
  simp only [judgeUnit, h]

/-- Settles O14: a unit of 63 octets at most is judged as it stands, a longer one as of 64. -/
theorem unitsAreJudgedByFourChecks : Obligations.UnitsAreJudgedByFourChecks := by
  unfold Obligations.UnitsAreJudgedByFourChecks
  intro s p os waits
  dsimp only
  refine ⟨fun size => ?_, fun least most bad => ?_, fun least most crcHolds bad => ?_,
    fun least most crcHolds lengthHolds nobody => ?_, fun least most crcHolds lengthHolds someone => ?_⟩
  · rw [exec_receiveUnit os waits, judgeUnit_error s (checkUnit_badSize _ ?_)]
    by_cases long : 63 < os.length
    · simp [long]
    · rw [decide_eq_false long, List.take_of_length_le (by omega)]
      exact size
  all_goals
    have fits : ¬ (os.length < Config.minUnit ∨ Config.maxUnit < os.length) := by
      simp only [Config.minUnit, Config.maxUnit]
      omega
    rw [exec_receiveUnit_stored waits most]
  · rw [judgeUnit_error (grown := false) s (checkUnit_badCrc fits bad)]
  · rw [judgeUnit_error (grown := false) s (checkUnit_badLength fits crcHolds bad)]
  · rw [judgeUnit_error (grown := false) s (checkUnit_nobody fits crcHolds lengthHolds nobody)]
  · rw [judgeUnit_ok (grown := false) s (checkUnit_passes fits crcHolds lengthHolds someone)]

/-! ## The path of a received frame (R3 to R9) -/

/-- The octets of a received frame are received as that frame. -/
theorem exec_receiveUnit_octets {p : Port} {s : State} {f : Frame} (h : framerOf s p = .waiting)
    (received : receivedFrame f = true) :
    exec (.receiveUnit p (0x7E :: Frame.octets f)) s = .next (receiveFrame p f s) := by
  simp only [receivedFrame, Bool.and_eq_true, decide_eq_true_eq] at received
  obtain ⟨⟨fits, sealed⟩, dst⟩ := received
  have size := length_octets f
  have fits' : f.payload.length ≤ 56 := fits
  rw [exec_receiveUnit_stored h (by omega), judgeUnit_ok s (f := f)]
  simpa [size] using checkUnit_octets fits sealed dst

theorem isController_eq_true (b : Byte) : isController b = true ↔ 0xF0 ≤ b.toNat ∧ b.toNat ≤ 0xFE :=
  decide_eq_true_iff

theorem isFieldNode_eq_true (b : Byte) : isFieldNode b = true ↔ 0x01 ≤ b.toNat ∧ b.toNat ≤ 0xDF :=
  decide_eq_true_iff

theorem isEngine_eq_true (b : Byte) : isEngine b = true ↔ 0xE0 ≤ b.toNat ∧ b.toNat ≤ 0xE7 :=
  decide_eq_true_iff

/-- 0x00 and the field nodes are the addresses up to 0xDF. -/
theorem zero_or_isFieldNode (b : Byte) : (b = 0x00#8 ∨ isFieldNode b = true) ↔ b.toNat ≤ 0xDF := by
  rw [isFieldNode_eq_true]
  constructor
  · rintro (rfl | h)
    · decide
    · exact h.2
  · intro h
    by_cases zero : b.toNat = 0
    · exact .inl (BitVec.eq_of_toNat_eq zero)
    · exact .inr ⟨by omega, h⟩

theorem admitU_room {x : UItem} {s : State}
    (h : s.portU.queue.length + s.portU.waiting.length < Config.queueUSize) :
    admitU x s = { s with portU := { s.portU with waiting := s.portU.waiting ++ [x] } } :=
  if_pos ((slotFree_eq_true s).2 h)

theorem admitU_full {x : UItem} {s : State}
    (h : Config.queueUSize ≤ s.portU.queue.length + s.portU.waiting.length) :
    admitU x s = countDropped s :=
  if_neg (by rw [slotFree_eq_true]; omega)

/-- R3, R4: the path of a frame received on Port U. -/
theorem receiveU_paths (f : Frame) (s : State) :
    (¬ (0xF0 ≤ f.src.toNat ∧ f.src.toNat ≤ 0xFE) → receiveU f s = countU .unknownSource s) ∧
    (0xF0 ≤ f.src.toNat ∧ f.src.toNat ≤ 0xFE →
      (f.dst = s.mgmt.ownAddr →
        receiveU f s = admitU (.request { src := f.src, seq := f.seq } (parseRequest f)) s) ∧
      (f.dst ≠ s.mgmt.ownAddr → f.dst.toNat ≤ 0xDF → receiveU f s = admitU (.relay f) s) ∧
      (f.dst ≠ s.mgmt.ownAddr → 0xE0 ≤ f.dst.toNat → f.dst.toNat ≤ 0xE7 → receiveU f s = s) ∧
      (f.dst ≠ s.mgmt.ownAddr → 0xE8 ≤ f.dst.toNat → receiveU f s = countU .misdirected s)) := by
  simp only [receiveU, Bool.not_eq_true', Bool.or_eq_true, decide_eq_true_eq, zero_or_isFieldNode,
    isEngine_eq_true, ← Bool.not_eq_true, isController_eq_true]
  refine ⟨fun unknown => if_pos unknown, fun known => ?_⟩
  rw [if_neg (Classical.not_not.2 known)]
  refine ⟨fun own => if_pos own, fun own low => ?_, fun own least most => ?_, fun own high => ?_⟩
  · rw [if_neg own, if_pos low]
  · rw [if_neg own, if_neg (by omega), if_pos ⟨least, most⟩]
  · rw [if_neg own, if_neg (by omega), if_neg (by omega)]

/-- R3, R7: the path of a frame received on a D port. -/
theorem receiveD_paths (p : DPort) (f : Frame) (s : State) :
    (¬ (0x01 ≤ f.src.toNat ∧ f.src.toNat ≤ 0xDF) → receiveD p f s = countD p .unknownSource s) ∧
    (0x01 ≤ f.src.toNat ∧ f.src.toNat ≤ 0xDF →
      (f.dst = s.mgmt.ownAddr → receiveD p f s = s.setPortD p
        { s.portD p with reports := (s.portD p).reports ++ [f] }) ∧
      (f.dst ≠ s.mgmt.ownAddr → 0xF0 ≤ f.dst.toNat ∧ f.dst.toNat ≤ 0xFE →
        receiveD p f s = offerCopy p f s) ∧
      (f.dst ≠ s.mgmt.ownAddr → ¬ (0xF0 ≤ f.dst.toNat ∧ f.dst.toNat ≤ 0xFE) →
        receiveD p f s = countD p .misdirected s)) := by
  simp only [receiveD, Bool.not_eq_true', isController_eq_true, ← Bool.not_eq_true, isFieldNode_eq_true]
  refine ⟨fun unknown => if_pos unknown, fun known => ?_⟩
  rw [if_neg (Classical.not_not.2 known)]
  refine ⟨fun own => if_pos own, fun own ctl => ?_, fun own other => ?_⟩
  · rw [if_neg own, if_pos ctl]
  · rw [if_neg own, if_neg other]

theorem offerCopy_room {p : DPort} {f : Frame} {s : State}
    (h : s.portU.queue.length + s.portU.waiting.length < Config.copyLimit) :
    offerCopy p f s = joinU f s := if_pos h

theorem offerCopy_full {p : DPort} {f : Frame} {s : State}
    (h : Config.copyLimit ≤ s.portU.queue.length + s.portU.waiting.length) :
    offerCopy p f s = countD p .copiesDropped (countU .copiesDropped s) := if_neg (Nat.not_lt.2 h)

theorem receiveFrame_portOfD (p : DPort) (f : Frame) (s : State) :
    receiveFrame (portOfD p) f s = receiveD p f s := by
  cases p <;> rfl

theorem framerOf_portOfD (p : DPort) (s : State) : framerOf s (portOfD p) = (s.portD p).framer := by
  cases p <;> rfl

/-- Settles O15: a received frame's octets are judged to be that frame, and the path is read off the classes of
its two addresses. -/
theorem framesTakeTheirPath : Obligations.FramesTakeTheirPath := by
  unfold Obligations.FramesTakeTheirPath
  refine ⟨fun s f waits received => ?_, fun s p f waits received => ?_, fun x s => ?_, fun p f s => ?_⟩
  · obtain ⟨unknown, known⟩ := receiveU_paths f s
    rw [exec_receiveUnit_octets (p := .u) waits received]
    refine ⟨fun h => congrArg _ (unknown h), fun h own => ?_, fun h own low => ?_,
      fun h own least most => ?_, fun h own high => ?_⟩
    all_goals obtain ⟨request, relay, engine, other⟩ := known h
    · exact congrArg _ (request own)
    · exact congrArg _ (relay own low)
    · exact congrArg _ (engine own least most)
    · exact congrArg _ (other own high)
  · obtain ⟨unknown, known⟩ := receiveD_paths p f s
    rw [exec_receiveUnit_octets (by rw [framerOf_portOfD, waits]) received, receiveFrame_portOfD]
    refine ⟨fun h => congrArg _ (unknown h), fun h own => ?_, fun h own ctl => ?_,
      fun h own other => ?_⟩
    all_goals obtain ⟨report, copy, misdirected⟩ := known h
    · exact congrArg _ (report own)
    · exact congrArg _ (copy own ctl)
    · exact congrArg _ (misdirected own other)
  · exact ⟨fun room => admitU_room room, fun full => admitU_full full⟩
  · refine ⟨fun room => offerCopy_room room, fun full => ?_⟩
    rw [offerCopy_full full]
    cases p <;>
      exact ⟨rfl, rfl, rfl, ⟨rfl, rfl, rfl, rfl, rfl, rfl, rfl⟩, ⟨rfl, rfl, rfl, rfl, rfl, rfl⟩⟩

/-! ## Transmissions (R8, R9, R11) -/

theorem setPortD_portD (s : State) (p : DPort) : s.setPortD p (s.portD p) = s := by
  cases p <;> rfl

theorem exec_transmissionStart (p : DPort) (s : State) :
    exec (.transmissionStart (portOfD p)) s = .next (startD p s) := by
  cases p <;> rfl

theorem exec_frameDeparture (p : DPort) (s : State) :
    exec (.frameDeparture (portOfD p)) s = .next (departD p s) := by
  cases p <;> rfl

/-- A free line begins with the frame that nextSending names (R11). -/
theorem startD_free {p : DPort} {s : State} (h : (s.portD p).sending = none) :
    startD p s = s.setPortD p { s.portD p with sending := nextSending s.mgmt.ownAddr (s.portD p) } := by
  simp only [startD, h]

theorem startD_idle {p : DPort} {s : State}
    (h : (s.portD p).sending ≠ none ∨ (s.portD p).urgent = [] ∧ (s.portD p).normal = []) :
    startD p s = s := by
  cases line : (s.portD p).sending with
  | some t => simp only [startD, line]
  | none =>
    obtain ⟨urgent, normal⟩ := h.resolve_left (· line)
    have nothing : nextSending s.mgmt.ownAddr (s.portD p) = (s.portD p).sending := by
      simp only [nextSending, urgent, normal, line]
    rw [startD_free line, nothing]
    exact setPortD_portD s p

theorem startU_idle {s : State} (h : s.portU.sending ≠ none ∨ s.portU.queue = []) : startU s = s := by
  cases line : s.portU.sending with
  | some t => simp only [startU, line]
  | none => simp only [startU, line, h.resolve_left (· line)]

/-- Settles O16, by the two cases of each line: free or in use. -/
theorem transmissionsBeginAndEnd : Obligations.TransmissionsBeginAndEnd := by
  unfold Obligations.TransmissionsBeginAndEnd
  refine ⟨fun s p => ⟨?_, ?_, ?_, ?_, ?_⟩, fun s p => ⟨?_, ?_⟩⟩
  · intro f rest line queue
    rw [exec_transmissionStart, startD_free line]
    simp only [nextSending, queue]
    rfl
  · intro f rest line noUrgent queue
    rw [exec_transmissionStart, startD_free line]
    simp only [nextSending, noUrgent, queue]
    rfl
  · intro idle
    rw [exec_transmissionStart, startD_idle idle]
  · intro f rest line queue
    change Host.Outcome.next (startU s) = _
    simp only [startU, line, queue]
    rfl
  · intro idle
    exact congrArg Host.Outcome.next (startU_idle idle)
  · intro os f rest line queue
    change Host.Outcome.next (departU s) = _
    simp only [departU, line, queue, List.drop_succ_cons, List.drop_zero]
  · intro os f rest line queue
    rw [exec_frameDeparture]
    simp only [departD, line, queue, if_true, List.drop_succ_cons, List.drop_zero]

end Sys2Proof.Machine

/-! ## The laws of the ports, port by port (R1, R9, R12, R15) -/

namespace Sys2Proof.Machine

/-- The law of Port U: counters saturate, the framer stores 63 octets at most, 24 frames and slots at
most. -/
def PortUOk (x : PortU) : Prop :=
  countersOk x.counters ∧ x.requestsDropped ≤ Config.max16 ∧ framerOk x.framer ∧
    x.queue.length + x.waiting.length ≤ Config.queueUSize

/-- The law of a D port: counters saturate, the framer stores 63 octets at most, 16 normal frames at
most. -/
def PortDOk (x : PortD) : Prop :=
  countersOk x.counters ∧ framerOk x.framer ∧ x.normal.length ≤ Config.normalSize

theorem portsOk_iff (s : State) : PortsOk s ↔
    PortUOk s.portU ∧ PortDOk s.d0 ∧ PortDOk s.d1 ∧ s.mgmt.seconds ≤ Config.max32 := by
  constructor
  · rintro ⟨⟨countersU, dropped, counters0, counters1, seconds⟩, ⟨framerU, framer0, framer1⟩, held, size0,
      size1⟩
    exact ⟨⟨countersU, dropped, framerU, held⟩, ⟨counters0, framer0, size0⟩,
      ⟨counters1, framer1, size1⟩, seconds⟩
  · rintro ⟨⟨countersU, dropped, framerU, held⟩, ⟨counters0, framer0, size0⟩,
      ⟨counters1, framer1, size1⟩, seconds⟩
    exact ⟨⟨countersU, dropped, counters0, counters1, seconds⟩, ⟨framerU, framer0, framer1⟩, held, size0,
      size1⟩

theorem portDOk_of_filled {x y : PortD} (counters : y.counters = x.counters) (framer : y.framer = x.framer)
    (fills : Filled x.normal y.normal) (h : PortDOk x) : PortDOk y := by
  obtain ⟨hc, hf, hn⟩ := h
  exact ⟨by rwa [counters], by rwa [framer], fills.2 hn⟩

/-- The law of the Node Map speaks of nothing else. -/
theorem bindingsOk_of_nodeMap {s t : State} (h : t.relay.nodeMap = s.relay.nodeMap) (hs : BindingsOk s) :
    BindingsOk t := by
  have same (n : Byte) : nodeAt t n = nodeAt s n := by simp only [nodeAt, h]
  simpa only [BindingsOk, Conflicts, same] using hs

/-! ### What the other units' acts leave of the Link Port Unit -/

/-- From s to t time, Port U and the Node Map are as they were, and each D port keeps its law. -/
structure LeavesLink (s t : State) : Prop where
  seconds : t.mgmt.seconds = s.mgmt.seconds
  portU : t.portU = s.portU
  nodeMap : t.relay.nodeMap = s.relay.nodeMap
  d0 : PortDOk s.d0 → PortDOk t.d0
  d1 : PortDOk s.d1 → PortDOk t.d1

theorem LeavesLink.trans {s t u : State} (h : LeavesLink s t) (g : LeavesLink t u) : LeavesLink s u :=
  ⟨g.seconds.trans h.seconds, g.portU.trans h.portU, g.nodeMap.trans h.nodeMap, g.d0 ∘ h.d0,
    g.d1 ∘ h.d1⟩

/-- The same chain told from its end: the later act first. -/
theorem LeavesLink.after {s t u : State} (g : LeavesLink t u) (h : LeavesLink s t) : LeavesLink s u :=
  h.trans g

/-- An act that touches neither time, ports nor Node Map. -/
theorem LeavesLink.of_same {s t : State} (seconds : t.mgmt.seconds = s.mgmt.seconds)
    (portU : t.portU = s.portU) (nodeMap : t.relay.nodeMap = s.relay.nodeMap) (same : ports t = ports s) :
    LeavesLink s t := by
  have h0 : t.d0 = s.d0 := congrArg Prod.fst same
  have h1 : t.d1 = s.d1 := congrArg Prod.snd same
  exact ⟨seconds, portU, nodeMap, by rw [h0]; exact id, by rw [h1]; exact id⟩

theorem LeavesLink.refl (s : State) : LeavesLink s s := .of_same rfl rfl rfl rfl

/-- A cascade of orders, evaluations, strokes, faults and closes. -/
theorem LeavesLink.of_quiet {s t : State} (hq : quiet t = quiet s) (hf : Fills s t) : LeavesLink s t := by
  simp only [quiet, portQuiet, Prod.mk.injEq] at hq
  obtain ⟨⟨mgmt, portU, relay, -⟩, -, -, -, -, ⟨framer0, -, -, -, counters0⟩,
    ⟨framer1, -, -, -, counters1⟩⟩ := hq
  exact ⟨by rw [mgmt], portU, by rw [relay], portDOk_of_filled counters0 framer0 hf.1,
    portDOk_of_filled counters1 framer1 hf.2⟩

/-- An act on one D port and its waiters. -/
theorem LeavesLink.of_offerFrame {s t : State} {p : DPort} (frame : offerFrame p t = offerFrame p s)
    (port : PortDOk (s.portD p) → PortDOk (t.portD p)) : LeavesLink s t := by
  simp only [offerFrame, Prod.mk.injEq] at frame
  obtain ⟨⟨⟨mgmt, portU, relay, -⟩, -⟩, -, -, -, other⟩ := frame
  have kept : PortDOk (s.portD (otherD p)) → PortDOk (t.portD (otherD p)) := by rw [other]; exact id
  cases p
  · exact ⟨by rw [mgmt], portU, by rw [relay], port, kept⟩
  · exact ⟨by rw [mgmt], portU, by rw [relay], kept, port⟩

theorem LeavesLink.of_setPortD {s : State} {p : DPort} {x : PortD} (h : PortDOk (s.portD p) → PortDOk x) :
    LeavesLink s (s.setPortD p x) :=
  .of_offerFrame (setPortD_offerFrame ..) (by rwa [portD_setPortD_same])

theorem foldl_leaves {α : Type} (f : State → α → State) (h : ∀ s x, LeavesLink s (f s x)) (xs : List α)
    (s : State) : LeavesLink s (xs.foldl f s) := by
  induction xs generalizing s with
  | nil => exact .refl s
  | cons x xs ih => exact (h s x).trans (ih _)

/-- One of two acts is taken. -/
theorem LeavesLink.ite {s t u : State} {c : Prop} [Decidable c] (ht : LeavesLink s t)
    (hu : LeavesLink s u) : LeavesLink s (if c then t else u) := by
  split
  · exact ht
  · exact hu

theorem withMeter_leaves (s : State) (x : MeterState) : LeavesLink s { s with meter := x } :=
  .of_same rfl rfl rfl rfl

theorem withArms_leaves (s : State) (x : ArmState) : LeavesLink s { s with arms := x } :=
  .of_same rfl rfl rfl rfl

theorem withReg_leaves (s : State) (x : RegState) : LeavesLink s { s with reg := x } :=
  .of_same rfl rfl rfl rfl

theorem withHeader_leaves (s : State) (x : HeaderState) : LeavesLink s { s with header := x } :=
  .of_same rfl rfl rfl rfl

theorem withInj_leaves (s : State) (x : InjState) : LeavesLink s { s with inj := x } :=
  .of_same rfl rfl rfl rfl

theorem withStop_leaves (s : State) (x : StopState) : LeavesLink s { s with stop := x } :=
  .of_same rfl rfl rfl rfl

theorem withRep_leaves (s : State) (x : RepState) : LeavesLink s { s with rep := x } :=
  .of_same rfl rfl rfl rfl

theorem settleAlerts_leaves (s : State) : LeavesLink s (settleAlerts s) := .of_same rfl rfl rfl rfl

theorem raiseAlert_leaves (k : AlertKind) (j : Subject) (s : State) : LeavesLink s (raiseAlert k j s) :=
  .of_quiet (raiseAlert_quiet ..) (.of_ports (raiseAlert_ports ..))

theorem setMeterRun_leaves (s : State) (i : Slot) (r : MeterRun) : LeavesLink s (s.setMeterRun i r) :=
  .of_same rfl rfl rfl rfl

theorem modCtx_leaves (s : State) (a : Arm) (f : ArmCtx → ArmCtx) : LeavesLink s (s.modCtx a f) :=
  .of_same rfl rfl rfl rfl

theorem setInjRun_leaves (s : State) (c : Channel) (r : InjRun) : LeavesLink s (s.setInjRun c r) :=
  .of_same rfl rfl rfl rfl

theorem setChan_leaves (s : State) (a : Arm) (st : Stream) (c : ValveChan) :
    LeavesLink s (s.setChan a st c) := .of_quiet (setChan_quiet ..) (.of_ports (setChan_ports ..))

theorem placeOrder_leaves (a : Arm) (st : Stream) (d : Nat) (s : State) :
    LeavesLink s (placeOrder a st d s) := .of_quiet (placeOrder_quiet ..) (placeOrder_fills ..)

theorem serveChannel_leaves (c : Channel) (s : State) : LeavesLink s (serveChannel c s) :=
  .of_quiet (serveChannel_quiet ..) (serveChannel_fills ..)

theorem judgeOutlet_leaves (c : Channel) (r : InjRun) (s : State) (o : Bool) :
    LeavesLink s (judgeOutlet c r s o) := .of_quiet (judgeOutlet_quiet ..) (judgeOutlet_fills ..)

theorem strokesFall_leaves (a : Arm) (p : ArmPhase) (s : State) : LeavesLink s (strokesFall a p s) :=
  .of_quiet (strokesFall_quiet ..) (strokesFall_fills ..)

theorem leaveClosing_leaves (a : Arm) (s : State) : LeavesLink s (leaveClosing a s) :=
  .of_quiet (leaveClosing_quiet ..) (leaveClosing_fills ..)

theorem completeClose_leaves (a : Arm) (s : State) : LeavesLink s (completeClose a s) :=
  .of_quiet (completeClose_quiet ..) (completeClose_fills ..)

theorem judgeClose_leaves (a : Arm) (s : State) : LeavesLink s (judgeClose a s) :=
  .of_quiet (judgeClose_quiet ..) (judgeClose_fills ..)

theorem enterClosing_leaves (a : Arm) (why : CloseReason) (s : State) :
    LeavesLink s (enterClosing a why s) := .of_quiet (enterClosing_quiet ..) (enterClosing_fills ..)

theorem enterDone_leaves (a : Arm) (why : EndReason) (s : State) : LeavesLink s (enterDone a why s) :=
  .of_quiet (enterDone_quiet ..) (.of_ports (enterDone_ports ..))

theorem leaveQueue_leaves (a : Arm) (s : State) : LeavesLink s (leaveQueue a s) :=
  .of_quiet (leaveQueue_quiet ..) (.of_ports (leaveQueue_ports ..))

theorem recheckSettled_leaves (a : Arm) (s : State) : LeavesLink s (recheckSettled a s) :=
  .of_quiet (recheckSettled_quiet ..) (.of_ports (recheckSettled_ports ..))

theorem faultArm_leaves (a : Arm) (k : AlertKind) (s : State) : LeavesLink s (faultArm a k s) :=
  .of_quiet (faultArm_quiet ..) (faultArm_fills ..)

theorem faultRunning_leaves (arms : Byte) (k : AlertKind) (s : State) :
    LeavesLink s (faultRunning arms k s) := .of_quiet (faultRunning_quiet ..) (faultRunning_fills ..)

theorem evalAndPhase_leaves (b : Bool) (a : Arm) (s : State) : LeavesLink s (evalAndPhase b a s) :=
  .of_quiet (evalAndPhase_quiet ..) (evalAndPhase_fills ..)

theorem makePass_leaves (s : State) : LeavesLink s (makePass s) :=
  .of_quiet (makePass_quiet ..) (makePass_fills ..)

theorem beginFlow_leaves (a : Arm) (s : State) : LeavesLink s (beginFlow a s) :=
  .of_quiet (beginFlow_quiet ..) (beginFlow_fills ..)

theorem changeCapacity_leaves (v : Nat) (s : State) : LeavesLink s (changeCapacity v s) :=
  .of_quiet (changeCapacity_quiet ..) (changeCapacity_fills ..)

theorem isolate_leaves (c : Channel) (s : State) : LeavesLink s (isolate c s) :=
  .of_quiet (isolate_quiet ..) (isolate_fills ..)

/-! ### Lane stops -/

theorem untrack_leaves (gone : List Byte) (s : State) : LeavesLink s (untrack gone s) :=
  withStop_leaves ..

theorem offerBroadcast_leaves (arms : Byte) (p : DPort) (s : State) :
    LeavesLink s (offerBroadcast arms p s) := by
  simp only [offerBroadcast]
  split
  · exact .of_setPortD id
  · exact .trans (.of_setPortD (by exact id)) (withStop_leaves ..)

theorem offerStopOrder_leaves (n : Byte) (s : State) : LeavesLink s (offerStopOrder n s) := by
  simp only [offerStopOrder]
  split
  · exact .refl s
  · exact .trans (.of_setPortD (by exact id)) (withStop_leaves ..)

theorem laneStop_leaves (arms : Byte) (s : State) : LeavesLink s (laneStop arms s) := by
  have onPort (p : DPort) (b : Bool) (t : State) :
      LeavesLink t (if b = true then offerBroadcast arms p t else t) :=
    .ite (offerBroadcast_leaves ..) (.refl t)
  simp only [laneStop]
  split
  · exact .refl s
  · exact .after (withStop_leaves ..) (.after (untrack_leaves ..) ((onPort .d0 _ s).trans (onPort .d1 _ _)))

/-! ### Meter samples -/

theorem raiseGap_leaves (m : Sample) (s : State) : LeavesLink s (raiseGap m s) :=
  .ite (faultArm_leaves ..) (.refl s)

theorem raiseSurge_leaves (m : Sample) (s : State) : LeavesLink s (raiseSurge m s) :=
  .ite (faultArm_leaves ..) (.refl s)

theorem raiseHead_leaves (m : Sample) (s : State) : LeavesLink s (raiseHead m s) :=
  .ite ((setMeterRun_leaves ..).trans (faultArm_leaves ..)) (.refl s)

theorem sampleFaults_leaves (m : Sample) (o : SampleOrder) (gap surge : Bool) (s : State) :
    LeavesLink s (sampleFaults m o gap surge s) := by
  have onGap (t : State) : LeavesLink t (if gap then raiseGap m t else t) :=
    .ite (raiseGap_leaves ..) (.refl t)
  have onSurge (t : State) : LeavesLink t (if surge then raiseSurge m t else t) :=
    .ite (raiseSurge_leaves ..) (.refl t)
  have first (t : State) := LeavesLink.ite (c := o.surgeFirst = true) (onSurge t) (onGap t)
  have second (t : State) := LeavesLink.ite (c := o.surgeFirst = true) (onGap t) (onSurge t)
  simp only [sampleFaults]
  split
  · exact ((raiseHead_leaves ..).trans (first _)).trans (second _)
  · exact ((first _).trans (raiseHead_leaves ..)).trans (second _)
  · exact ((first _).trans (second _)).trans (raiseHead_leaves ..)

theorem settleMeter_leaves (m : Sample) (delta : Nat) (s : State) :
    LeavesLink s (settleMeter m delta s) := .ite (.of_same rfl rfl rfl rfl) (.refl s)

theorem handOn_leaves (m : Sample) (o : SampleOrder) (p : ArmPhase) (delta : Nat) (s : State) :
    LeavesLink s (handOn m o p delta s) :=
  .ite ((settleMeter_leaves ..).trans ((strokesFall_leaves ..).trans (evalAndPhase_leaves ..)))
    ((settleMeter_leaves ..).trans ((evalAndPhase_leaves ..).trans (strokesFall_leaves ..)))

theorem markStray_leaves (m : Sample) (s : State) : LeavesLink s (markStray m s) :=
  .ite (.refl s) ((setMeterRun_leaves ..).trans (raiseAlert_leaves ..))

theorem addUnassigned_leaves (m : Sample) (p : ArmPhase) (volume : Nat) (s : State) :
    LeavesLink s (addUnassigned m p volume s) := by
  have grown : LeavesLink s (growUnassigned m.arm volume s) := .of_same rfl rfl rfl rfl
  exact .ite (setMeterRun_leaves ..)
    ((grown.trans (.ite (modCtx_leaves ..) (.refl _))).trans (markStray_leaves ..))

theorem convertSample_leaves (m : Sample) (o : SampleOrder) (p : ArmPhase) (delta : Nat) (s : State) :
    LeavesLink s (convertSample m o p delta s) := by
  have added (v : Nat) (t : State) : LeavesLink t (addVolume m v t) := .of_same rfl rfl rfl rfl
  simp only [convertSample]
  exact .after (.ite ((added _ _).trans (handOn_leaves ..)) (addUnassigned_leaves ..))
    (setMeterRun_leaves ..)

theorem measure_leaves (m : Sample) (o : SampleOrder) (gap : Bool) (s : State) :
    LeavesLink s (measure m o gap s) := by
  simp only [measure]
  refine .after (.ite (sampleFaults_leaves ..) ?_) (setMeterRun_leaves ..)
  exact .ite ((sampleFaults_leaves ..).trans (convertSample_leaves ..))
    ((convertSample_leaves ..).trans (sampleFaults_leaves ..))

theorem sampleAct_leaves (m : Sample) (o : SampleOrder) (s : State) :
    LeavesLink s (sampleAct m o s) := by
  have judged (t : State) : LeavesLink t (settleAlerts (judgeClose m.arm t)) :=
    (judgeClose_leaves ..).trans (settleAlerts_leaves _)
  simp only [sampleAct]
  split
  · split
    · exact .refl s
    · exact ((setMeterRun_leaves ..).trans (raiseHead_leaves ..)).trans (judged _)
    · exact (measure_leaves ..).trans (judged _)
    · exact (measure_leaves ..).trans (judged _)
  · exact .refl s

theorem fallSilent_leaves (i : Slot) (s : State) : LeavesLink s (fallSilent i s) := by
  simp only [fallSilent]
  refine (setMeterRun_leaves s i { s.meterRun i with silent := true, timer := none }).trans ?_
  split
  · exact ((faultArm_leaves ..).trans (judgeClose_leaves ..)).trans (settleAlerts_leaves _)
  · exact .refl _

/-! ### Valve reports and expiries -/

theorem placeLatched_leaves (a : Arm) (st : Stream) (d : Nat) (s : State) :
    LeavesLink s (placeLatched a st d s) := by
  simp only [placeLatched]
  split
  · exact .ite (setChan_leaves ..) (placeOrder_leaves ..)
  · exact .refl s

theorem acknowledge_leaves (a : Arm) (st : Stream) (o : ValveFlight) (s : State) :
    LeavesLink s (acknowledge a st o s) := by
  have answered (t : State) : LeavesLink t (answerWatch a t) :=
    .ite (.of_same rfl rfl rfl rfl) (.refl t)
  have placed := (setChan_leaves s a st { s.chan a st with inFlight := none, expiryCount := 0 }).trans
    (placeLatched_leaves a st o.demand _)
  simp only [acknowledge]
  split
  · exact placed
  · exact placed.trans (answered _)

theorem takeAck_leaves (r : ValveRpt) (s : State) : LeavesLink s (takeAck r s) := by
  simp only [takeAck]
  split
  · exact acknowledge_leaves ..
  · exact .refl s

theorem valveReportAct_leaves (r : ValveRpt) (s : State) : LeavesLink s (valveReportAct r s) := by
  have taken : LeavesLink s (recheckSettled r.arm (takeAck r (holdReport r s))) :=
    .after (recheckSettled_leaves ..) (.after (takeAck_leaves ..) (setChan_leaves ..))
  simp only [valveReportAct]
  refine .trans (.trans (taken.trans ?_) (judgeClose_leaves ..)) (settleAlerts_leaves _)
  exact .ite (faultArm_leaves ..) (.refl _)

theorem responseExpired_leaves (a : Arm) (st : Stream) (o : ValveFlight) (s : State) :
    LeavesLink s (responseExpired a st o s) := by
  have answerless (t : State) : LeavesLink t (unanswered a t) :=
    .ite (laneStop_leaves ..) (faultArm_leaves ..)
  exact .ite ((setChan_leaves ..).trans (placeOrder_leaves ..))
    (((setChan_leaves ..).trans (answerless _)).trans (settleAlerts_leaves _))

theorem closeLimitExpired_leaves (a : Arm) (s : State) : LeavesLink s (closeLimitExpired a s) := by
  have unsettled : LeavesLink s (closeUnsettled a s) :=
    .trans ((modCtx_leaves ..).trans (raiseAlert_leaves ..)) (completeClose_leaves ..)
  have failed : LeavesLink s (closeFailed a s) := by
    simp only [closeFailed]
    refine .trans ((laneStop_leaves (onlyArm a) s).trans (leaveClosing_leaves a _)) ?_
    exact .trans ((modCtx_leaves ..).trans (modCtx_leaves ..)) (raiseAlert_leaves ..)
  exact .ite (.trans (.ite unsettled failed) (settleAlerts_leaves _)) (.refl s)

/-! ### Strokes, waits, permits, stops -/

theorem strokeConfirmed_leaves (c : Channel) (k : StrokeFlight) (s : State) :
    LeavesLink s (strokeConfirmed c k s) := by
  simp only [strokeConfirmed]
  split
  · refine .after (judgeOutlet_leaves ..) (.after (serveChannel_leaves ..) ?_)
    exact .after (modCtx_leaves ..) (setInjRun_leaves ..)
  · exact (setInjRun_leaves ..).trans (serveChannel_leaves ..)

theorem strokeMissed_leaves (c : Channel) (k : StrokeFlight) (s : State) :
    LeavesLink s (strokeMissed c k s) :=
  .trans (setInjRun_leaves ..) (.ite (isolate_leaves ..) (serveChannel_leaves ..))

theorem strokeReportAct_leaves (r : StrokeRpt) (s : State) : LeavesLink s (strokeReportAct r s) := by
  simp only [strokeReportAct]
  split
  · exact .trans (.ite (strokeConfirmed_leaves ..) (strokeMissed_leaves ..)) (settleAlerts_leaves _)
  · exact .refl s

theorem waitExpired_leaves (a : Arm) (s : State) : LeavesLink s (waitExpired a s) := by
  have timed (t : WaitTimer) : LeavesLink s (s.setWaitTimer a t) := .of_same rfl rfl rfl rfl
  exact .ite (((timed _).trans (raiseAlert_leaves ..)).trans (settleAlerts_leaves _)) (timed _)

theorem releaseSurplus_leaves (a : Arm) (s : State) : LeavesLink s (releaseSurplus a s) := by
  simp only [releaseSurplus]
  split
  · exact .of_quiet (by simp) (.of_ports (by simp))
  · exact .refl s

theorem setPermits_leaves (bits : Byte) (timer : Timer) (s : State) :
    LeavesLink s (setPermits bits timer s) := by
  simp only [setPermits]
  refine .after (settleAlerts_leaves _) (.after (foldl_leaves _ ?_ _ _) (.of_same rfl rfl rfl rfl))
  exact fun t a => .ite (faultArm_leaves ..) (.refl t)

theorem setMark_leaves (n : Byte) (b : Bool) (s : State) : LeavesLink s (setMark n b s) := by
  simp only [setMark]
  split
  · exact .of_same rfl rfl rfl rfl
  · exact .refl s

theorem confirmStation_leaves (n : Byte) (s : State) : LeavesLink s (confirmStation n s) := by
  have untracked : LeavesLink s (if isTracked s n = true then untrack [n] s else s) :=
    .ite (untrack_leaves ..) (.refl s)
  simp only [confirmStation]
  exact .after (settleAlerts_leaves _) (untracked.trans (.ite (setMark_leaves ..) (.refl _)))

theorem declareNotClosed_leaves (s : State) (n : Byte) : LeavesLink s (declareNotClosed s n) :=
  .trans (.trans ((untrack_leaves ..).trans (setMark_leaves ..)) (raiseAlert_leaves ..))
    (faultArm_leaves ..)

theorem retryExpired_leaves (i : Nat) (x : TrackSet) (s : State) : LeavesLink s (retryExpired i x s) := by
  have retried : LeavesLink s (retryStations i x s) :=
    .after (foldl_leaves _ (fun t n => offerStopOrder_leaves n t) _ _) (withStop_leaves ..)
  exact .ite retried ((foldl_leaves _ declareNotClosed_leaves _ _).trans (settleAlerts_leaves _))

theorem assertEstop_leaves (s : State) : LeavesLink s (assertEstop s) := by
  have level : LeavesLink s { s with stop := { s.stop with estop := true } } := .of_same rfl rfl rfl rfl
  refine .trans (.trans ?_ (faultRunning_leaves ..)) (settleAlerts_leaves _)
  exact (level.trans (laneStop_leaves ..)).trans (raiseAlert_leaves ..)

/-! ### Table writes: whatever they come to, they leave the Link Port Unit -/

theorem judgeFilterWrite_leaves (i : Byte) (r : RawFilter) (s : State) :
    LeavesLink s (judgeFilterWrite i r s).2 := by
  simp only [judgeFilterWrite]
  (repeat' split) <;> exact .of_same rfl rfl rfl rfl

theorem judgeMeterWrite_leaves (i : Byte) (r : RawMeter) (s : State) :
    LeavesLink s (judgeMeterWrite i r s).2 := by
  simp only [judgeMeterWrite]
  (repeat' split) <;> exact .of_same rfl rfl rfl rfl

theorem judgeInjectorWrite_leaves (i : Byte) (r : RawInjector) (s : State) :
    LeavesLink s (judgeInjectorWrite i r s).2 := by
  simp only [judgeInjectorWrite]
  (repeat' split) <;> exact .of_same rfl rfl rfl rfl

theorem judgeRecipeWrite_leaves (i : Byte) (r : RawRecipe) (s : State) :
    LeavesLink s (judgeRecipeWrite i r s).2 := by
  simp only [judgeRecipeWrite]
  (repeat' split) <;> exact .of_same rfl rfl rfl rfl

theorem judgeArmWrite_leaves (i : Byte) (r : RawArm) (s : State) :
    LeavesLink s (judgeArmWrite i r s).2 := by
  simp only [judgeArmWrite]
  (repeat' split) <;> exact .of_same rfl rfl rfl rfl

theorem judgeSettingsWrite_leaves (i : Byte) (r : RawSettings) (s : State) :
    LeavesLink s (judgeSettingsWrite i r s).2 := by
  simp only [judgeSettingsWrite]
  (repeat' split) <;> exact .of_same rfl rfl rfl rfl

theorem judgeHeaderWrite_leaves (i : Byte) (r : RawHeader) (s : State) :
    LeavesLink s (judgeHeaderWrite i r s).2 := by
  simp only [judgeHeaderWrite]
  split
  · exact .refl s
  · split
    · exact .refl s
    · split
      · exact .refl s
      · exact .after (changeCapacity_leaves ..) (.of_same rfl rfl rfl rfl)

/-! ### Arm commands -/

theorem judgeArm_leaves (i : Byte) (takes : ArmCtx → Bool) {act : Arm → State → Judged}
    (h : ∀ a t, LeavesLink t (act a t).2) (s : State) : LeavesLink s (judgeArm i takes act s).2 := by
  simp only [judgeArm]
  split
  · exact .refl s
  · split
    · exact .refl s
    · split
      · split
        · exact h ..
        · exact .refl s
      · exact .refl s

theorem carried_leaves {act : State → State} {s : State} (h : LeavesLink s (act s)) :
    LeavesLink s (carried act s).2 := h.trans (settleAlerts_leaves _)

/-- Each freed slot is offered once, so no more orders join than slots were freed (R31). -/
theorem portD_offerSlots (p : DPort) (n : Nat) (s : State) : ∃ more, more.length ≤ n ∧
    (offerSlots p n s).portD p = { s.portD p with normal := (s.portD p).normal ++ more } := by
  induction n generalizing s with
  | zero => exact ⟨[], Nat.le_refl _, by simp [offerSlots]⟩
  | succ n ih =>
    obtain ⟨more, few, port⟩ := ih (offerSlot p s)
    refine ⟨(waiters.findSome? (orderOf s p)).toList ++ more, ?_, ?_⟩
    · have one : (waiters.findSome? (orderOf s p)).toList.length ≤ 1 := by
        cases waiters.findSome? (orderOf s p) <;> simp
      simp only [List.length_append]
      omega
    · rw [offerSlots, port, offerSlot, portD_offerAlong]
      simp only [List.append_assoc]

theorem offerSlots_offerFrame (p : DPort) (n : Nat) (s : State) :
    offerFrame p (offerSlots p n s) = offerFrame p s := by
  induction n generalizing s with
  | zero => rfl
  | succ n ih => rw [offerSlots, ih, offerSlot_offerFrame]

theorem begunPart_append {α : Type} (begun : Bool) (xs : List α) :
    (begunPart begun xs).1 ++ (begunPart begun xs).2 = xs := by
  cases begun
  · rfl
  · exact List.take_append_drop 1 xs

theorem withdrawOn_leaves (a : Arm) (p : DPort) (s : State) : LeavesLink s (withdrawOn a p s) := by
  simp only [withdrawOn]
  generalize hparts : begunPart (normalBegun (s.portD p)) (s.portD p).normal = parts
  generalize hkept : parts.2.filter (fun f => !withdrawnBy s a f) = kept
  have fewer : kept.length ≤ parts.2.length := by rw [← hkept]; exact List.length_filter_le ..
  have whole : (s.portD p).normal = parts.1 ++ parts.2 := by rw [← hparts, begunPart_append]
  refine .of_offerFrame (by rw [offerSlots_offerFrame, setPortD_offerFrame]) ?_
  obtain ⟨more, few, port⟩ := portD_offerSlots p (parts.2.length - kept.length)
    (s.setPortD p { s.portD p with normal := parts.1 ++ kept })
  rw [port, portD_setPortD_same]
  rintro ⟨counters, framer, size⟩
  refine ⟨counters, framer, ?_⟩
  rw [whole, List.length_append] at size
  simp only [List.length_append]
  omega

theorem openBatch_leaves (a : Arm) (b : Batch) (lines : List LineState) (s : State) :
    LeavesLink s (openBatch a b lines s) := by
  have zeroed (t : State) : LeavesLink t (zeroRemainders a t) :=
    foldl_leaves _ (fun t i => setMeterRun_leaves ..) _ _
  have ready : LeavesLink s (s.setCtx a (readyCtx b lines)) := .of_same rfl rfl rfl rfl
  have granted (t : State) (g : Grant) : LeavesLink t (t.setGrant a g) := .of_same rfl rfl rfl rfl
  simp only [openBatch, withdrawRelayed]
  refine .after ((withdrawOn_leaves ..).trans (withdrawOn_leaves ..)) (.after (withRep_leaves ..) ?_)
  exact (ready.trans (zeroed _)).trans (granted _ _)

theorem authorizeArm_leaves (id : Word32) (recipe : Byte) (preset : Word32) (a : Arm) (s : State) :
    LeavesLink s (authorizeArm id recipe preset a s).2 := by
  have opened (b : Batch) : LeavesLink s (authorizeWith a b s).2 := by
    simp only [authorizeWith]
    split
    · exact .refl s
    · split
      · exact .refl s
      · split
        · exact .refl s
        · split
          · exact .refl s
          · split
            · exact .refl s
            · split
              · exact .refl s
              · exact carried_leaves (openBatch_leaves ..)
  simp only [authorizeArm]
  split
  · exact .refl s
  · split
    · exact opened _
    · exact .refl s

theorem toIdle_leaves (a : Arm) (s : State) : LeavesLink s (toIdle a s) := .of_same rfl rfl rfl rfl

theorem cancelBatch_leaves (a : Arm) (s : State) : LeavesLink s (cancelBatch a s) :=
  .after (withRep_leaves ..) (toIdle_leaves ..)

theorem pauseArm_leaves (a : Arm) (s : State) : LeavesLink s (pauseArm a s) := by
  simp only [pauseArm]
  split
  case h_1 => exact (leaveQueue_leaves ..).trans (modCtx_leaves ..)
  case h_5 => exact modCtx_leaves ..
  case h_2 | h_3 | h_4 => exact enterClosing_leaves ..
  all_goals exact .refl s

theorem stopArm_leaves (a : Arm) (s : State) : LeavesLink s (stopArm a s) := by
  simp only [stopArm]
  split
  case h_1 => exact (leaveQueue_leaves ..).trans (enterDone_leaves ..)
  case h_5 => exact modCtx_leaves ..
  case h_2 | h_3 | h_4 => exact enterClosing_leaves ..
  case h_6 | h_7 => exact enterDone_leaves ..
  all_goals exact .refl s

theorem releaseArm_leaves (a : Arm) (s : State) : LeavesLink s (releaseArm a s) :=
  .after (toIdle_leaves ..)
    (.of_quiet (uncountStrokes_quiet ..) (.of_ports (uncountStrokes_ports ..)))

theorem judgeStart_leaves (i : Byte) (s : State) : LeavesLink s (judgeStart i s).2 :=
  judgeArm_leaves i _ (fun a t => by
    split
    · exact .refl t
    · exact carried_leaves ((modCtx_leaves ..).trans (beginFlow_leaves ..))) s

theorem judgeResume_leaves (i : Byte) (s : State) : LeavesLink s (judgeResume i s).2 :=
  judgeArm_leaves i _ (fun a t => by
    split
    · exact .refl t
    · exact carried_leaves ((modCtx_leaves ..).trans (beginFlow_leaves ..))) s

theorem judgeFaultReset_leaves (i : Byte) (s : State) : LeavesLink s (judgeFaultReset i s).2 :=
  judgeArm_leaves i _ (fun a t => by
    split
    · exact .refl t
    · exact carried_leaves (modCtx_leaves ..)) s

/-! ### Records, mode, lane stop -/

theorem judgeAlertAck_leaves (mark : Word32) (s : State) : LeavesLink s (judgeAlertAck mark s).2 :=
  .ite (.of_same rfl rfl rfl rfl) (.of_same rfl rfl rfl rfl)

theorem judgeRecordAck_leaves (id : Word32) (s : State) : LeavesLink s (judgeRecordAck id s).2 := by
  simp only [judgeRecordAck]
  (repeat' split) <;> exact .of_same rfl rfl rfl rfl

theorem modeStop_leaves (a : Arm) (s : State) : LeavesLink s (modeStop a s) :=
  .ite (cancelBatch_leaves ..) (.ite (stopArm_leaves ..) (.refl s))

theorem withMode_leaves (s : State) (m : Mode) :
    LeavesLink s { s with mgmt := { s.mgmt with mode := m } } := .of_same rfl rfl rfl rfl

theorem judgeMode_leaves (mode force : Byte) (s : State) : LeavesLink s (judgeMode mode force s).2 := by
  have standby : LeavesLink s (forceStandby s) :=
    .after (withMode_leaves ..)
      (foldl_leaves _ (fun t a => .ite (modeStop_leaves ..) (.refl t)) _ _)
  simp only [judgeMode]
  split
  · exact withMode_leaves ..
  · split
    · exact .refl s
    · split
      · split
        · exact carried_leaves standby
        · exact .refl s
      · exact withMode_leaves ..
  · exact .refl s

theorem judgeLaneStop_leaves (arms : Byte) (s : State) : LeavesLink s (judgeLaneStop arms s).2 := by
  simp only [judgeLaneStop]
  split
  · exact .refl s
  · exact carried_leaves ((laneStop_leaves ..).trans (faultRunning_leaves ..))

end Sys2Proof.Machine

/-! ## The Node Map (R18, R19, R21) -/

namespace Sys2Proof.Machine

theorem nodeIndex_of_range {n : Byte} (h : 1 ≤ n.toNat ∧ n.toNat ≤ 0xDF) :
    ∃ hi, nodeIndex n = some ⟨n.toNat - 1, hi⟩ := ⟨by omega, dif_pos h⟩

theorem nodeIndex_eq_some {n : Byte} {i : Fin 223} (h : nodeIndex n = some i) :
    (1 ≤ n.toNat ∧ n.toNat ≤ 0xDF) ∧ i.val = n.toNat - 1 := by
  simp only [nodeIndex] at h
  split at h
  · rename_i range
    cases h
    exact ⟨range, rfl⟩
  · cases h

theorem nodeIndex_inj {n m : Byte} {i : Fin 223} (hn : nodeIndex n = some i) (hm : nodeIndex m = some i) :
    n = m := by
  obtain ⟨⟨_, _⟩, _⟩ := nodeIndex_eq_some hn
  obtain ⟨⟨_, _⟩, _⟩ := nodeIndex_eq_some hm
  exact BitVec.eq_of_toNat_eq (by omega)

/-- The valid nodes are the addresses of field nodes with their valid entries. -/
theorem mem_validNodes (s : State) (n : Byte) (e : NodeEntry) : (n, e) ∈ validNodes s ↔
    (1 ≤ n.toNat ∧ n.toNat ≤ 0xDF) ∧ nodeAt s n = e ∧ e.valid = true := by
  simp only [validNodes, List.mem_filterMap, Prod.exists, List.mem_zipIdx_iff_le_and_getElem?_sub]
  constructor
  · rintro ⟨x, k, ⟨least, at_k⟩, h⟩
    obtain ⟨size, rfl⟩ := List.getElem?_eq_some_iff.1 at_k
    split at h
    · rename_i valid
      cases h
      simp only [Vector.length_toList] at size
      have address : (BitVec.ofNat 8 k).toNat = k := by simp only [BitVec.toNat_ofNat]; omega
      obtain ⟨_, index⟩ := nodeIndex_of_range (n := BitVec.ofNat 8 k) (by omega)
      refine ⟨by omega, ?_, valid⟩
      simp [nodeAt, index, sel, address]
    · cases h
  · rintro ⟨range, rfl, valid⟩
    obtain ⟨small, index⟩ := nodeIndex_of_range range
    refine ⟨nodeAt s n, n.toNat, ⟨range.1, ?_⟩, by simp [valid]⟩
    simp [nodeAt, index, sel, small]

theorem nodeAt_setNode {n : Byte} {i : Fin 223} (h : nodeIndex n = some i) (e : NodeEntry) (s : State)
    (m : Byte) : nodeAt (setNode i e s) m = if m = n then e else nodeAt s m := by
  split
  · rename_i same
    simp [nodeAt, same, h, setNode]
  · rename_i ne
    simp only [nodeAt, setNode]
    split
    · rename_i j hj
      have other : i ≠ j := by rintro rfl; exact ne (nodeIndex_inj hj h)
      rw [sel_put_ne _ _ _ _ other]
    · rfl

/-! ### Clashes of two entries -/

/-- Two valid entries that give the same binding (R21). -/
def Clashes (x y : NodeEntry) : Prop :=
  namesArm x.role ∧ y.role = x.role ∧ y.arm = x.arm ∨
    isMeterRole x.role ∧ isMeterRole y.role ∧ y.slot = x.slot ∨
    x.role = .injector ∧ y.role = .injector ∧ y.channel = x.channel ∨
    x.role = .permit ∧ y.role = .permit

theorem Clashes.symm {x y : NodeEntry} (h : Clashes x y) : Clashes y x := by
  rcases h with ⟨arm, role, same⟩ | ⟨hx, hy, same⟩ | ⟨hx, hy, same⟩ | ⟨hx, hy⟩
  · exact .inl ⟨by rwa [role], role.symm, same.symm⟩
  · exact .inr (.inl ⟨hy, hx, same.symm⟩)
  · exact .inr (.inr (.inl ⟨hy, hx, same.symm⟩))
  · exact .inr (.inr (.inr ⟨hy, hx⟩))

theorem conflicts_iff (s : State) (n : Byte) (e : NodeEntry) : Conflicts s n e ↔ e.valid = true ∧
    ∃ m, (1 ≤ m.toNat ∧ m.toNat ≤ 0xDF) ∧ m ≠ n ∧ (nodeAt s m).valid = true ∧
      Clashes e (nodeAt s m) := Iff.rfl

theorem streamOfMeter_isSome (r : Role) : (streamOfMeter r).isSome = true ↔ isMeterRole r := by
  cases r <;> simp [streamOfMeter, isMeterRole]

theorem namesArm_iff_isSome (r : Role) :
    ((streamOfMeter r).isSome = true ∨ (streamOfValve r).isSome = true) ↔ namesArm r := by
  cases r <;> simp [streamOfMeter, streamOfValve, namesArm]

theorem entriesClash_eq_true (x y : NodeEntry) : entriesClash x y = true ↔ Clashes x y := by
  simp only [entriesClash, Clashes, Bool.or_eq_true, Bool.and_eq_true, decide_eq_true_eq,
    eq_comm (a := y.role), eq_comm (a := y.arm), eq_comm (a := y.slot), eq_comm (a := y.channel)]
  rw [namesArm_iff_isSome, streamOfMeter_isSome, streamOfMeter_isSome]
  simp only [or_assoc, and_assoc]

/-- The check of a NODE MAP write finds the conflicts of R21. -/
theorem nodeConflict_eq_true (s : State) (n : Byte) (e : NodeEntry) :
    nodeConflict s n e = true ↔ Conflicts s n e := by
  simp only [nodeConflict, conflicts_iff, Bool.and_eq_true, List.any_eq_true, Prod.exists,
    mem_validNodes, decide_eq_true_eq, entriesClash_eq_true]
  constructor
  · rintro ⟨valid, m, x, ⟨range, rfl, hx⟩, ne, clash⟩
    exact ⟨valid, m, range, ne, hx, clash⟩
  · rintro ⟨valid, m, range, ne, hx, clash⟩
    exact ⟨valid, m, _, ⟨range, rfl, hx⟩, ne, clash⟩

/-- An entry without conflict may be written (R21). -/
theorem bindingsOk_setNode {s : State} {n : Byte} {i : Fin 223} {e : NodeEntry}
    (index : nodeIndex n = some i) (h : ¬ Conflicts s n e) (hs : BindingsOk s) :
    BindingsOk (setNode i e s) := by
  intro m range conflict
  obtain ⟨valid, k, rangeK, ne, validK, clash⟩ := (conflicts_iff ..).1 conflict
  rw [nodeAt_setNode index] at valid validK clash
  rw [nodeAt_setNode index] at clash
  by_cases hm : m = n
  · have hk : k ≠ n := hm ▸ ne
    rw [if_pos hm] at valid clash
    rw [if_neg hk] at validK clash
    exact h ⟨valid, k, rangeK, hk, validK, clash⟩
  · rw [if_neg hm] at valid clash
    by_cases hk : k = n
    · rw [if_pos hk] at validK clash
      exact h ⟨validK, m, range, hm, valid, clash.symm⟩
    · rw [if_neg hk] at validK clash
      exact hs m range ⟨valid, k, rangeK, ne, validK, clash⟩

/-! ## Steps that keep the laws -/

/-- From s to t the laws of the ports and of the Node Map are kept. -/
structure KeepsLinkLaws (s t : State) : Prop where
  ports : PortsOk s → PortsOk t
  bindings : BindingsOk s → BindingsOk t

theorem KeepsLinkLaws.refl (s : State) : KeepsLinkLaws s s := ⟨id, id⟩

theorem KeepsLinkLaws.trans {s t u : State} (h : KeepsLinkLaws s t) (g : KeepsLinkLaws t u) :
    KeepsLinkLaws s u := ⟨g.ports ∘ h.ports, g.bindings ∘ h.bindings⟩

theorem LeavesLink.keeps {s t : State} (h : LeavesLink s t) : KeepsLinkLaws s t := by
  refine ⟨?_, bindingsOk_of_nodeMap h.nodeMap⟩
  rw [portsOk_iff, portsOk_iff, h.portU, h.seconds]
  rintro ⟨u, d0, d1, seconds⟩
  exact ⟨u, h.d0 d0, h.d1 d1, seconds⟩

/-- A change of Port U alone. -/
theorem KeepsLinkLaws.of_portU {s : State} {x : PortU} (h : PortUOk s.portU → PortUOk x) :
    KeepsLinkLaws s { s with portU := x } := by
  refine ⟨?_, bindingsOk_of_nodeMap rfl⟩
  rw [portsOk_iff, portsOk_iff]
  rintro ⟨u, rest⟩
  exact ⟨h u, rest⟩

theorem KeepsLinkLaws.of_setPortD {s : State} {p : DPort} {x : PortD}
    (h : PortDOk (s.portD p) → PortDOk x) : KeepsLinkLaws s (s.setPortD p x) :=
  (LeavesLink.of_setPortD h).keeps

theorem KeepsLinkLaws.ite {s t u : State} {c : Prop} [Decidable c] (ht : KeepsLinkLaws s t)
    (hu : KeepsLinkLaws s u) : KeepsLinkLaws s (if c then t else u) := by
  split
  · exact ht
  · exact hu

/-! ### Counters (R15) -/

theorem countersOk_count {c : Counters} (i : CounterId) (h : countersOk c) :
    countersOk (Counters.count c i) := by
  have saturates (n : Nat) : bump Config.max16 n ≤ Config.max16 := Nat.min_le_right ..
  obtain ⟨crc, format, source, misdirected, copies⟩ := h
  cases i
  · exact ⟨saturates _, format, source, misdirected, copies⟩
  · exact ⟨crc, saturates _, source, misdirected, copies⟩
  · exact ⟨crc, format, saturates _, misdirected, copies⟩
  · exact ⟨crc, format, source, saturates _, copies⟩
  · exact ⟨crc, format, source, misdirected, saturates _⟩

theorem countersOk_zero : countersOk .zero := by unfold countersOk; decide

theorem countU_keeps (i : CounterId) (s : State) : KeepsLinkLaws s (countU i s) :=
  .of_portU (fun ⟨counters, rest⟩ => ⟨countersOk_count i counters, rest⟩)

theorem countD_keeps (p : DPort) (i : CounterId) (s : State) : KeepsLinkLaws s (countD p i s) :=
  .of_setPortD (fun ⟨counters, rest⟩ => ⟨countersOk_count i counters, rest⟩)

theorem countPort_keeps (p : Port) (i : CounterId) (s : State) : KeepsLinkLaws s (countPort p i s) := by
  cases p
  · exact countU_keeps i s
  · exact countD_keeps .d0 i s
  · exact countD_keeps .d1 i s

theorem countDropped_keeps (s : State) : KeepsLinkLaws s (countDropped s) :=
  .of_portU (fun ⟨counters, _, rest⟩ => ⟨counters, Nat.min_le_right .., rest⟩)

/-! ### Frames that join Port U (R5, R6, R9) -/

/-- Port U has a slot left. -/
def HasRoom (s : State) : Prop := s.portU.queue.length + s.portU.waiting.length < Config.queueUSize

theorem joinU_keeps {s : State} (f : Frame) (h : HasRoom s) : KeepsLinkLaws s (joinU f s) :=
  .of_portU (fun ⟨counters, dropped, framer, _⟩ => ⟨counters, dropped, framer, by
    unfold HasRoom at h
    simp only [List.length_append, List.length_singleton]
    omega⟩)

theorem offerCopy_keeps (p : DPort) (f : Frame) (s : State) : KeepsLinkLaws s (offerCopy p f s) := by
  by_cases h : s.portU.queue.length + s.portU.waiting.length < Config.copyLimit
  · rw [offerCopy_room h]
    exact joinU_keeps f (Nat.lt_trans h (by decide))
  · rw [offerCopy_full (Nat.not_lt.1 h)]
    exact (countU_keeps ..).trans (countD_keeps ..)

theorem joinWaiting_keeps {s : State} (x : UItem) (h : HasRoom s) :
    KeepsLinkLaws s { s with portU := { s.portU with waiting := s.portU.waiting ++ [x] } } :=
  .of_portU (fun ⟨counters, dropped, framer, _⟩ => ⟨counters, dropped, framer, by
    unfold HasRoom at h
    simp only [List.length_append, List.length_singleton]
    omega⟩)

theorem admitU_keeps (x : UItem) (s : State) : KeepsLinkLaws s (admitU x s) := by
  by_cases h : HasRoom s
  · rw [admitU_room h]
    exact joinWaiting_keeps x h
  · rw [admitU_full (Nat.not_lt.1 h)]
    exact countDropped_keeps s

/-! ### Units received, frames sent -/

theorem setFramer_keeps (p : Port) (s : State) : KeepsLinkLaws s (setFramer p .waiting s) := by
  cases p
  · exact .of_portU (fun ⟨counters, dropped, _, held⟩ => ⟨counters, dropped, trivial, held⟩)
  · exact .of_setPortD (p := .d0) (fun ⟨counters, _, size⟩ => ⟨counters, trivial, size⟩)
  · exact .of_setPortD (p := .d1) (fun ⟨counters, _, size⟩ => ⟨counters, trivial, size⟩)

theorem receiveU_keeps (f : Frame) (s : State) : KeepsLinkLaws s (receiveU f s) :=
  .ite (countU_keeps ..) (.ite (admitU_keeps ..) (.ite (admitU_keeps ..)
    (.ite (.refl s) (countU_keeps ..))))

theorem receiveD_keeps (p : DPort) (f : Frame) (s : State) : KeepsLinkLaws s (receiveD p f s) :=
  .ite (countD_keeps ..) (.ite (.of_setPortD id) (.ite (offerCopy_keeps ..) (countD_keeps ..)))

theorem receiveUnitAct_keeps (p : Port) (os : List Byte) (s : State) :
    KeepsLinkLaws s (receiveUnitAct p os s) := by
  have received (f : Frame) (t : State) : KeepsLinkLaws t (receiveFrame p f t) := by
    cases p
    · exact receiveU_keeps f t
    · exact receiveD_keeps .d0 f t
    · exact receiveD_keeps .d1 f t
  have judged (unit : List Byte) (grown : Bool) (t : State) : KeepsLinkLaws t (judgeUnit p unit grown t) := by
    simp only [judgeUnit]
    split
    · exact received ..
    · exact countPort_keeps ..
    · exact countPort_keeps ..
  simp only [receiveUnitAct]
  split
  · exact setFramer_keeps p s
  · exact (setFramer_keeps p s).trans (judged ..)

theorem startU_keeps (s : State) : KeepsLinkLaws s (startU s) := by
  simp only [startU]
  split
  · exact .of_portU id
  · exact .refl s

theorem startD_keeps (p : DPort) (s : State) : KeepsLinkLaws s (startD p s) := by
  simp only [startD]
  split
  · exact .refl s
  · exact .of_setPortD id

theorem departU_keeps (s : State) : KeepsLinkLaws s (departU s) := by
  simp only [departU]
  split
  · refine .of_portU (fun ⟨counters, dropped, framer, held⟩ => ⟨counters, dropped, framer, ?_⟩)
    simp only [List.length_drop]
    omega
  · exact .refl s

/-- The slot a normal frame frees is filled by one order at most (R13). -/
theorem departed_keeps {s : State} {p : DPort} {f : NormalFrame} {rest : List NormalFrame}
    (queue : (s.portD p).normal = f :: rest) :
    KeepsLinkLaws s (offerSlot p (departNormal f (freed p rest s))) := by
  refine (LeavesLink.of_offerFrame (p := p) ?_ ?_).keeps
  · rw [offerSlot_offerFrame, departNormal_offerFrame, freed_offerFrame]
  · rw [portD_departed]
    rintro ⟨counters, framer, size⟩
    refine ⟨counters, framer, ?_⟩
    rw [queue] at size
    have one : (waiters.findSome? (orderOf s p)).toList.length ≤ 1 := by
      cases waiters.findSome? (orderOf s p) <;> simp
    simp only [List.length_cons] at size
    simp only [List.length_append]
    omega

theorem departD_keeps (p : DPort) (s : State) : KeepsLinkLaws s (departD p s) := by
  cases line : (s.portD p).sending with
  | none =>
    simp only [departD, line]
    exact .refl s
  | some x =>
    simp only [departD, line]
    split
    · exact .of_setPortD id
    · cases queue : (s.portD p).normal with
      | nil => exact .of_setPortD (fun ⟨counters, framer, _⟩ => ⟨counters, framer, Nat.zero_le _⟩)
      | cons f rest => exact departed_keeps queue

/-! ### Field reports (R24 to R27) -/

theorem dispatchReport_leaves (e : NodeEntry) (f : Frame) (s : State) :
    LeavesLink s (dispatchReport e f s) := by
  simp only [dispatchReport]
  split <;> exact .of_same rfl rfl rfl rfl

theorem reportAct_keeps (p : DPort) (f : Frame) (s : State) : KeepsLinkLaws s (reportAct p f s) := by
  simp only [reportAct]
  split
  · split
    · exact (countD_keeps ..).trans (offerCopy_keeps ..)
    · exact countD_keeps ..
  · split
    · refine KeepsLinkLaws.trans ?_ (dispatchReport_leaves ..).keeps
      exact .ite (offerCopy_keeps ..) (.refl s)
    · exact countD_keeps ..

/-! ### Frames of Port U that are taken and answered (R5, R6, R29, R156) -/

/-- With a slot left in s, the laws are kept to t: how a frame is acted on, whose answer fills the slot it
gives back. -/
structure Answers (s t : State) : Prop where
  ports : HasRoom s → PortsOk s → PortsOk t
  bindings : BindingsOk s → BindingsOk t

theorem KeepsLinkLaws.answers {s t : State} (h : KeepsLinkLaws s t) : Answers s t :=
  ⟨fun _ => h.ports, h.bindings⟩

theorem Answers.keeps {s t u : State} (h : Answers s t) (g : KeepsLinkLaws t u) : Answers s u :=
  ⟨fun room => g.ports ∘ h.ports room, g.bindings ∘ h.bindings⟩

/-- What keeps the laws and the slot may come before the answer. -/
theorem Answers.after {s t u : State} (h : Answers t u) (room : HasRoom s → HasRoom t)
    (g : KeepsLinkLaws s t) : Answers s u :=
  ⟨fun r => h.ports (room r) ∘ g.ports, h.bindings ∘ g.bindings⟩

theorem joinU_answers (f : Frame) (s : State) : Answers s (joinU f s) :=
  ⟨fun room => (joinU_keeps f room).ports, bindingsOk_of_nodeMap rfl⟩

theorem result_answers (h : ReqHead) (kind : Byte) (c : Code) (s : State) :
    Answers s (result h kind c s) := joinU_answers ..

theorem answer_answers (h : ReqHead) (kind : Byte) (os : List Byte) (s : State) :
    Answers s (answer h kind os s) := joinU_answers ..

theorem useFree_answers (h : ReqHead) (kind : Byte) (os : List Byte) (s : State) :
    Answers s (answer h kind os (useFree s)) :=
  (answer_answers ..).after id (LeavesLink.of_same (s := s) (t := useFree s) rfl rfl rfl rfl).keeps

/-- Every frame that is taken gives back the slot its answer fills. -/
theorem takeU_keeps {act : State → State} (h : ∀ t, Answers t (act t)) (x : UItem) (s : State) :
    KeepsLinkLaws s (takeU x act s) := by
  simp only [takeU]
  split
  · rename_i now
    have next : IsNext s x := by
      simp only [turnIn] at now
      split at now
      · assumption
      · split at now <;> cases now
    have waits : x ∈ s.portU.waiting := mem_of_mem_aheadOf (List.mem_of_head? next)
    have given : KeepsLinkLaws s (s.take x) := .of_portU (fun ⟨counters, dropped, framer, held⟩ =>
      ⟨counters, dropped, framer, by have := length_dropItem waits; dsimp only; omega⟩)
    refine ⟨fun ok => (h _).ports ?_ (given.ports ok), (h _).bindings ∘ given.bindings⟩
    obtain ⟨⟨-, -, -, held⟩, -⟩ := (portsOk_iff s).1 ok
    have := length_dropItem waits
    simp only [HasRoom]
    omega
  · exact .refl s
  · split
    · rename_i free
      have room : HasRoom s := (slotFree_eq_true s).1 free
      split
      · exact ⟨(h s).ports room, (h s).bindings⟩
      · exact joinWaiting_keeps x room
    · exact countDropped_keeps s

/-- A judged request that leaves Port U to its answer. -/
theorem request_keeps {judge : State → Judged}
    (h : ∀ t, (judge t).2.portU = t.portU ∧ KeepsLinkLaws t (judge t).2) (x : ReqHead) (r : Request)
    (s : State) : KeepsLinkLaws s (request x r judge s) :=
  takeU_keeps (fun t => (result_answers ..).after
    (by unfold HasRoom; rw [(h t).1]; exact id) (h t).2) _ _

theorem request_keeps_of_leaves {judge : State → Judged} (h : ∀ t, LeavesLink t (judge t).2)
    (x : ReqHead) (r : Request) (s : State) : KeepsLinkLaws s (request x r judge s) :=
  request_keeps (fun t => ⟨(h t).portU, (h t).keeps⟩) x r s

theorem routeFrame_answers (f : Frame) (s : State) : Answers s (routeFrame f s) := by
  have joined {p : DPort} {t : State} (x : NormalFrame) (room : normalRoom t p = true) :
      KeepsLinkLaws t (joinNormal p x t) :=
    (LeavesLink.of_quiet (joinNormal_quiet ..) (joinNormal_fills x room)).keeps
  simp only [routeFrame]
  split
  · split
    · exact (joined _ ‹_›).answers
    · exact result_answers ..
  · split
    · rename_i both
      obtain ⟨room0, room1⟩ := (Bool.and_eq_true _ _).mp both
      exact ((joined (p := .d0) _ room0).trans (joined (p := .d1) _ room1)).answers
    · exact result_answers ..

theorem relayAct_answers (f : Frame) (s : State) : Answers s (relayAct f s) := by
  simp only [relayAct]
  split
  · exact routeFrame_answers f s
  · split
    · exact result_answers ..
    · exact routeFrame_answers f s

theorem tableReadAct_answers (h : ReqHead) (t : TableId) (i : Byte) (s : State) :
    Answers s (tableReadAct h t i s) := by
  simp only [tableReadAct]
  split
  · exact useFree_answers ..
  · exact result_answers ..

theorem armStatusAct_answers (h : ReqHead) (arm part first : Byte) (s : State) :
    Answers s (armStatusAct h arm part first s) := by
  simp only [armStatusAct]
  split
  · exact result_answers ..
  · split
    · exact useFree_answers ..
    · exact useFree_answers ..
    · exact useFree_answers ..
    · exact result_answers ..

theorem zeroCounters_keeps (s : State) : KeepsLinkLaws s (zeroCounters s) := by
  refine ⟨?_, bindingsOk_of_nodeMap rfl⟩
  rw [portsOk_iff, portsOk_iff]
  rintro ⟨⟨-, -, framer, held⟩, ⟨-, framer0, size0⟩, ⟨-, framer1, size1⟩, seconds⟩
  exact ⟨⟨countersOk_zero, Nat.zero_le _, framer, held⟩, ⟨countersOk_zero, framer0, size0⟩,
    ⟨countersOk_zero, framer1, size1⟩, seconds⟩

theorem engineStatusAct_answers (h : ReqHead) (part clear : Byte) (s : State) :
    Answers s (engineStatusAct h part clear s) := by
  simp only [engineStatusAct]
  split
  · exact answer_answers ..
  · exact answer_answers ..
  · exact (answer_answers ..).after id (zeroCounters_keeps s)
  · exact answer_answers ..
  · exact result_answers ..

theorem recordFetchAct_answers (h : ReqHead) (s : State) : Answers s (recordFetchAct h s) := by
  simp only [recordFetchAct]
  split
  · exact result_answers ..
  · exact useFree_answers ..

/-! ### RESTART (R155) -/

theorem portDOk_restartPort {x : PortD} (h : PortDOk x) : PortDOk (restartPort x) := by
  obtain ⟨-, framer, size⟩ := h
  refine ⟨countersOk_zero, framer, ?_⟩
  have whole := congrArg List.length (begunPart_append (normalBegun x) x.normal)
  have fewer := List.length_filter_le (fun f : NormalFrame => decide (f.owner = .relayed))
    (begunPart (normalBegun x) x.normal).2
  simp only [restartPort, List.length_append] at whole ⊢
  omega

theorem restartPorts_keeps (s : State) : KeepsLinkLaws s (restartPorts s) := by
  refine ⟨?_, bindingsOk_of_nodeMap rfl⟩
  rw [portsOk_iff, portsOk_iff]
  rintro ⟨⟨-, -, framer, held⟩, d0, d1, seconds⟩
  exact ⟨⟨countersOk_zero, Nat.zero_le _, framer, held⟩, portDOk_restartPort d0,
    portDOk_restartPort d1, seconds⟩

theorem restartArms_leaves (s : State) : LeavesLink s (restartArms s) :=
  .after (withArms_leaves ..)
    (foldl_leaves _ (fun t _ => .ite (enterDone_leaves ..) (.refl t)) allArms s)

theorem restartEngine_keeps (s : State) : KeepsLinkLaws s (restartEngine s) := by
  have steps2to4 (t : State) :
      LeavesLink t (restartValves (restartInjectors (restartHeader t))) := .of_same rfl rfl rfl rfl
  have steps6to8 (t : State) :
      LeavesLink t (restartMode (restartReports (restartMeters t))) := .of_same rfl rfl rfl rfl
  have step9 (t : State) : LeavesLink t (restartStops t) :=
    .after (laneStop_leaves ..) (withStop_leaves ..)
  exact ((restartArms_leaves s).trans (steps2to4 _)).keeps.trans
    ((restartPorts_keeps _).trans ((steps6to8 _).trans (step9 _)).keeps)

theorem restartAct_answers (h : ReqHead) (confirm : Byte) (s : State) :
    Answers s (restartAct h confirm s) := by
  simp only [restartAct]
  split
  · exact (result_answers ..).keeps (restartEngine_keeps _)
  · exact result_answers ..

/-! ### NODE MAP writes (R20 to R23) -/

theorem rebind_leaves (e : NodeEntry) (s : State) : LeavesLink s (rebind e s) := by
  have held (a : Arm) (st : Stream) : LeavesLink s (clearHeld a st s) :=
    .after (recheckSettled_leaves ..) (setChan_leaves ..)
  simp only [rebind]
  split
  · split
    · exact setMeterRun_leaves ..
    · exact setMeterRun_leaves ..
    · exact held ..
    · exact held ..
    · exact .of_same rfl rfl rfl rfl
    · exact .refl s
    · exact .refl s
  · exact .refl s

theorem setNode_keeps {s : State} {n : Byte} {i : Fin 223} {e : NodeEntry} (index : nodeIndex n = some i)
    (h : ¬ Conflicts s n e) : KeepsLinkLaws s (setNode i e s) :=
  ⟨id, bindingsOk_setNode index h⟩

theorem judgeNodeWrite_keeps (n : Byte) (r : RawNode) (s : State) :
    (judgeNodeWrite n r s).2.portU = s.portU ∧ KeepsLinkLaws s (judgeNodeWrite n r s).2 := by
  simp only [judgeNodeWrite]
  split
  · exact ⟨rfl, .refl s⟩
  · rename_i i index
    split
    · exact ⟨rfl, .refl s⟩
    · rename_i e _
      split
      · exact ⟨rfl, .refl s⟩
      · rename_i free
        have written : KeepsLinkLaws s (setNode i e s) :=
          setNode_keeps index (mt (nodeConflict_eq_true s n e).2 free)
        split
        · exact ⟨rfl, written⟩
        · split
          · exact ⟨rfl, .refl s⟩
          · have rebound := LeavesLink.after (settleAlerts_leaves _)
              ((rebind_leaves (sel s.relay.nodeMap i) (setNode i e s)).trans (rebind_leaves e _))
            exact ⟨rebound.portU, written.trans rebound.keeps⟩

/-! ### POWER_ON (R154) -/

theorem powerOnState_keeps (straps : BitVec 3) (estop : Bool) (s : State) :
    KeepsLinkLaws s (powerOnState straps estop s) := by
  have raised (b : Bool) (t : State) :
      LeavesLink t (if b = true then enterAlert .estop .nobody t else t) := by
    obtain ⟨r, h, -, -⟩ := enterAlert_rest .estop .nobody t
    rw [h]
    exact .ite (withRep_leaves ..) (.refl t)
  refine KeepsLinkLaws.trans ⟨fun _ => ?_, fun _ => ?_⟩ (raised estop _).keeps
  · rw [portsOk_iff]
    exact ⟨⟨countersOk_zero, Nat.zero_le _, trivial, Nat.zero_le _⟩,
      ⟨countersOk_zero, trivial, Nat.zero_le _⟩, ⟨countersOk_zero, trivial, Nat.zero_le _⟩,
      Nat.zero_le _⟩
  · intro n range conflict
    obtain ⟨_, index⟩ := nodeIndex_of_range range
    have valid := conflict.1
    simp only [nodeAt, index, State.reset, sel_replicate] at valid
    exact absurd valid (by decide)

/-! ### Every command -/

/-- A report is taken from its list, and acted on at its turn (R26, log 1). -/
theorem taken_leaves {s t : State} {act : State → State} (h : ∀ u, LeavesLink u (act u))
    (listed : LeavesLink s t) (now : Bool) : LeavesLink s (if now = true then act t else t) :=
  .ite (listed.trans (h t)) listed

theorem execMeterSilenceExpiry_leaves (i : Slot) (s : State) :
    ∃ t, execMeterSilenceExpiry i s = .next t ∧ LeavesLink s t := by
  simp only [execMeterSilenceExpiry]
  split
  · exact ⟨_, rfl, fallSilent_leaves i s⟩
  · exact ⟨_, rfl, .refl s⟩

theorem execValveResponseExpiry_leaves (a : Arm) (st : Stream) (s : State) :
    ∃ t, execValveResponseExpiry a st s = .next t ∧ LeavesLink s t := by
  simp only [execValveResponseExpiry]
  split
  · exact ⟨_, rfl, .ite (responseExpired_leaves ..) (.refl s)⟩
  · exact ⟨_, rfl, .refl s⟩

theorem execStrokeTimerExpiry_leaves (c : Channel) (s : State) :
    ∃ t, execStrokeTimerExpiry c s = .next t ∧ LeavesLink s t := by
  simp only [execStrokeTimerExpiry]
  split
  · exact ⟨_, rfl, .ite ((strokeMissed_leaves ..).trans (settleAlerts_leaves _)) (.refl s)⟩
  · exact ⟨_, rfl, .refl s⟩

theorem execWaitTimerExpiry_leaves (a : Arm) (s : State) :
    ∃ t, execWaitTimerExpiry a s = .next t ∧ LeavesLink s t := by
  simp only [execWaitTimerExpiry]
  split
  · exact ⟨_, rfl, waitExpired_leaves a s⟩
  · exact ⟨_, rfl, .refl s⟩

theorem execSpacingTimerExpiry_leaves (s : State) :
    ∃ t, execSpacingTimerExpiry s = .next t ∧ LeavesLink s t := by
  simp only [execSpacingTimerExpiry]
  split
  · exact ⟨_, rfl, .after (settleAlerts_leaves _) (.after (makePass_leaves _) (withHeader_leaves ..))⟩
  · exact ⟨_, rfl, .refl s⟩

theorem execRetryTimerExpiry_leaves (i : Nat) (s : State) :
    ∃ t, execRetryTimerExpiry i s = .next t ∧ LeavesLink s t := by
  simp only [execRetryTimerExpiry]
  split
  · exact ⟨_, rfl, .ite (retryExpired_leaves ..) (.refl s)⟩
  · exact ⟨_, rfl, .refl s⟩

theorem execPermitSilenceExpiry_leaves (s : State) :
    ∃ t, execPermitSilenceExpiry s = .next t ∧ LeavesLink s t := by
  simp only [execPermitSilenceExpiry]
  split
  · exact ⟨_, rfl, setPermits_leaves ..⟩
  · exact ⟨_, rfl, .refl s⟩

theorem seconds_keeps (s : State) : KeepsLinkLaws s
    { s with mgmt := { s.mgmt with seconds := bump Config.max32 s.mgmt.seconds } } := by
  refine ⟨?_, bindingsOk_of_nodeMap rfl⟩
  rw [portsOk_iff, portsOk_iff]
  rintro ⟨u, d0, d1, -⟩
  exact ⟨u, d0, d1, Nat.min_le_right ..⟩

theorem exists_next_keeps {s : State} {r : Result} (h : ∃ t, r = .next t ∧ LeavesLink s t) :
    ∃ t, r = .next t ∧ KeepsLinkLaws s t := by
  obtain ⟨t, run, leaves⟩ := h
  exact ⟨t, run, leaves.keeps⟩

/-- Every command answers a next state, and keeps the laws of the ports and of the Node Map. -/
theorem exec_keepsLinkLaws (c : Instr) (s : State) : ∃ t, exec c s = .next t ∧ KeepsLinkLaws s t := by
  cases c with
  | powerOn straps estop => exact ⟨_, rfl, powerOnState_keeps ..⟩
  | receiveUnit p os => exact ⟨_, rfl, receiveUnitAct_keeps ..⟩
  | badRequestAnswer h kind => exact ⟨_, rfl, takeU_keeps (result_answers h kind _) _ s⟩
  | relayFrame f => exact ⟨_, rfl, takeU_keeps (relayAct_answers f) _ s⟩
  | fieldReport p f =>
    refine ⟨_, rfl, ?_⟩
    have handed (xs : List Frame) :
        KeepsLinkLaws s (s.setPortD p { s.portD p with reports := xs }) := .of_setPortD id
    exact .ite ((handed _).trans (reportAct_keeps ..)) (handed _)
  | transmissionStart p =>
    cases p
    · exact ⟨_, rfl, startU_keeps s⟩
    · exact ⟨_, rfl, startD_keeps .d0 s⟩
    · exact ⟨_, rfl, startD_keeps .d1 s⟩
  | frameDeparture p =>
    cases p
    · exact ⟨_, rfl, departU_keeps s⟩
    · exact ⟨_, rfl, departD_keeps .d0 s⟩
    · exact ⟨_, rfl, departD_keeps .d1 s⟩
  | tableRead h t i => exact ⟨_, rfl, takeU_keeps (tableReadAct_answers h t i) _ s⟩
  | tableWriteNodeMap h i r => exact ⟨_, rfl, request_keeps (judgeNodeWrite_keeps i r) _ _ s⟩
  | tableWriteRelayFilter h i r =>
    exact ⟨_, rfl, request_keeps_of_leaves (judgeFilterWrite_leaves i r) _ _ s⟩
  | tableWriteMeter h i r => exact ⟨_, rfl, request_keeps_of_leaves (judgeMeterWrite_leaves i r) _ _ s⟩
  | tableWriteInjector h i r =>
    exact ⟨_, rfl, request_keeps_of_leaves (judgeInjectorWrite_leaves i r) _ _ s⟩
  | tableWriteRecipe h i r => exact ⟨_, rfl, request_keeps_of_leaves (judgeRecipeWrite_leaves i r) _ _ s⟩
  | tableWriteArm h i r => exact ⟨_, rfl, request_keeps_of_leaves (judgeArmWrite_leaves i r) _ _ s⟩
  | tableWriteSettings h i r =>
    exact ⟨_, rfl, request_keeps_of_leaves (judgeSettingsWrite_leaves i r) _ _ s⟩
  | tableWriteHeader h i r => exact ⟨_, rfl, request_keeps_of_leaves (judgeHeaderWrite_leaves i r) _ _ s⟩
  | authorize h a id n p =>
    exact ⟨_, rfl, request_keeps_of_leaves (judgeArm_leaves a _ (authorizeArm_leaves id n p)) _ _ s⟩
  | cancel h a =>
    exact ⟨_, rfl, request_keeps_of_leaves
      (judgeArm_leaves a _ (fun _ _ => carried_leaves (cancelBatch_leaves ..))) _ _ s⟩
  | start h a => exact ⟨_, rfl, request_keeps_of_leaves (judgeStart_leaves a) _ _ s⟩
  | pause h a =>
    exact ⟨_, rfl, request_keeps_of_leaves
      (judgeArm_leaves a _ (fun _ _ => carried_leaves (pauseArm_leaves ..))) _ _ s⟩
  | resume h a => exact ⟨_, rfl, request_keeps_of_leaves (judgeResume_leaves a) _ _ s⟩
  | stop h a =>
    exact ⟨_, rfl, request_keeps_of_leaves
      (judgeArm_leaves a _ (fun _ _ => carried_leaves (stopArm_leaves ..))) _ _ s⟩
  | faultReset h a => exact ⟨_, rfl, request_keeps_of_leaves (judgeFaultReset_leaves a) _ _ s⟩
  | release h a =>
    exact ⟨_, rfl, request_keeps_of_leaves
      (judgeArm_leaves a _ (fun _ _ => carried_leaves (releaseArm_leaves ..))) _ _ s⟩
  | armStatus h a p f => exact ⟨_, rfl, takeU_keeps (armStatusAct_answers h a p f) _ s⟩
  | engineStatus h p x => exact ⟨_, rfl, takeU_keeps (engineStatusAct_answers h p x) _ s⟩
  | alertSnapshot h n => exact ⟨_, rfl, takeU_keeps (fun t => answer_answers ..) _ s⟩
  | alertAck h m => exact ⟨_, rfl, request_keeps_of_leaves (judgeAlertAck_leaves m) _ _ s⟩
  | recordFetch h => exact ⟨_, rfl, takeU_keeps (recordFetchAct_answers h) _ s⟩
  | recordAck h id => exact ⟨_, rfl, request_keeps_of_leaves (judgeRecordAck_leaves id) _ _ s⟩
  | mode h m f => exact ⟨_, rfl, request_keeps_of_leaves (judgeMode_leaves m f) _ _ s⟩
  | restart h x => exact ⟨_, rfl, takeU_keeps (restartAct_answers h x) _ s⟩
  | laneStop h arms => exact ⟨_, rfl, request_keeps_of_leaves (judgeLaneStop_leaves arms) _ _ s⟩
  | meterSample m o =>
    exact ⟨_, rfl, (taken_leaves (sampleAct_leaves m o) (withMeter_leaves ..) _).keeps⟩
  | valveReport r =>
    exact ⟨_, rfl, (taken_leaves (valveReportAct_leaves r) (withReg_leaves ..) _).keeps⟩
  | laneStopValveReport r =>
    exact ⟨_, rfl, (taken_leaves (confirmStation_leaves r.station) (withStop_leaves ..) _).keeps⟩
  | strokeReport r =>
    exact ⟨_, rfl, (taken_leaves (strokeReportAct_leaves r) (withInj_leaves ..) _).keeps⟩
  | permitReport bits =>
    exact ⟨_, rfl, (taken_leaves (fun u => setPermits_leaves bits (some u.mgmt.settings.permitLimit) u)
      (withArms_leaves ..) _).keeps⟩
  | permitSilenceExpiry => exact exists_next_keeps (execPermitSilenceExpiry_leaves s)
  | meterSilenceExpiry i => exact exists_next_keeps (execMeterSilenceExpiry_leaves i s)
  | closeLimitExpiry a => exact ⟨_, rfl, .ite (closeLimitExpired_leaves a s).keeps (.refl s)⟩
  | valveResponseExpiry a st => exact exists_next_keeps (execValveResponseExpiry_leaves a st s)
  | strokeTimerExpiry c => exact exists_next_keeps (execStrokeTimerExpiry_leaves c s)
  | waitTimerExpiry a => exact exists_next_keeps (execWaitTimerExpiry_leaves a s)
  | spacingTimerExpiry => exact exists_next_keeps (execSpacingTimerExpiry_leaves s)
  | servingPass =>
    exact ⟨_, rfl, .ite ((makePass_leaves s).trans (settleAlerts_leaves _)).keeps (.refl s)⟩
  | yieldAnswer a =>
    exact ⟨_, rfl, .ite (LeavesLink.after (releaseSurplus_leaves a _) (withHeader_leaves s _)).keeps
      (.refl s)⟩
  | retryTimerExpiry i => exact exists_next_keeps (execRetryTimerExpiry_leaves i s)
  | estopAsserted => exact ⟨_, rfl, .ite (.refl s) (assertEstop_leaves s).keeps⟩
  | estopReleased =>
    exact ⟨_, rfl, .ite (LeavesLink.after (settleAlerts_leaves _) (withStop_leaves s _)).keeps (.refl s)⟩
  | engineSecondsTick => exact ⟨_, rfl, seconds_keeps s⟩

theorem step_keepsLinkLaws {s t : State} (h : step s = .next t) : KeepsLinkLaws s t := by
  cases queue : s.pending with
  | nil =>
    simp only [step, queue, Host.Outcome.next.injEq] at h
    subst h
    exact .refl s
  | cons c rest =>
    simp only [step, queue] at h
    obtain ⟨u, run, keeps⟩ := exec_keepsLinkLaws c { s with pending := rest }
    obtain rfl : u = t := Host.Outcome.next.inj (run.symm.trans h)
    exact ⟨keeps.ports, keeps.bindings⟩

/-- Settles O10: every command keeps both laws; the other units' acts leave Port U, time and the Node Map
and let orders join only where a normal queue has room. -/
theorem everyStepKeepsThePortsAndBindings : Obligations.EveryStepKeepsThePortsAndBindings := by
  unfold Obligations.EveryStepKeepsThePortsAndBindings
  exact ⟨fun s t ok run => (step_keepsLinkLaws run).ports ok,
    fun s t ok run => (step_keepsLinkLaws run).bindings ok⟩

end Sys2Proof.Machine

/-! ## Which nodes reach an active arm (R19, R30, R33) -/

namespace Sys2Proof.Machine

/-- Only a field node's address has a valid entry (R18). -/
theorem range_of_valid {s : State} {n : Byte} (h : (nodeAt s n).valid = true) :
    1 ≤ n.toNat ∧ n.toNat ≤ 0xDF := by
  cases index : nodeIndex n with
  | some i => exact (nodeIndex_eq_some index).1
  | none =>
    simp only [nodeAt, index] at h
    exact absurd h (by decide)

/-- The address 0x00 has no entry (R18). -/
theorem nodeAt_zero_invalid (s : State) : (nodeAt s 0x00).valid = false :=
  Bool.eq_false_iff.2 fun valid => absurd (range_of_valid valid).1 (by decide)

theorem BoundTo.range {s : State} {n : Byte} {a : Arm} (h : BoundTo s n a) :
    1 ≤ n.toNat ∧ n.toNat ≤ 0xDF := range_of_valid h.1

theorem mem_injRec_arms (r : InjRec) (a : Arm) :
    a ∈ InjRec.arms r ↔ r.out0 = some a ∨ r.out1 = some a := by
  simp [InjRec.arms, eq_comm]

/-- The arms a node is bound to are listed by its role (R19). -/
theorem mem_nodeArms (s : State) (n : Byte) (a : Arm) : a ∈ nodeArms s n ↔ BoundTo s n a := by
  unfold nodeArms BoundTo
  generalize nodeAt s n = e
  obtain ⟨valid, role, arm, slot, channel, port, copyUp⟩ := e
  cases valid with
  | false => simp
  | true =>
    cases role with
    | injector =>
      by_cases own : (s.injRec channel).valid = true ∧ (s.injRec channel).node = n
      · simp [own, mem_injRec_arms, streamOfMeter, streamOfValve]
      · simpa [own, streamOfMeter, streamOfValve] using fun valid node => absurd ⟨valid, node⟩ own
    | permit => simp [streamOfMeter, streamOfValve]
    | passive => simp [streamOfMeter, streamOfValve]
    | meterGasoline | meterEthanol | valveGasoline | valveEthanol =>
      simp [streamOfMeter, streamOfValve, eq_comm (a := a)]

theorem boundToActive_eq_true (s : State) (n : Byte) :
    boundToActive s n = true ↔ ∃ a, BoundTo s n a ∧ isActive (s.phase a) = true := by
  simp only [boundToActive, List.any_eq_true, mem_nodeArms]

theorem anyBoundToActive_eq_true (s : State) :
    anyBoundToActive s = true ↔ ∃ n a, BoundTo s n a ∧ isActive (s.phase a) = true := by
  simp only [anyBoundToActive, List.any_eq_true, Prod.exists, mem_validNodes, boundToActive_eq_true]
  constructor
  · rintro ⟨n, _, -, a, bound, active⟩
    exact ⟨n, a, bound, active⟩
  · rintro ⟨n, a, bound, active⟩
    exact ⟨n, _, ⟨bound.range, rfl, bound.1⟩, a, bound, active⟩

/-- The reading of a destination that the ownership check and the filters share (R30, R33). -/
theorem destination_eq_true (s : State) (dst : Byte) :
    (if dst = 0x00#8 then anyBoundToActive s else boundToActive s dst) = true ↔
      ReachesActiveArm s dst := by
  unfold ReachesActiveArm
  split
  · rename_i all
    rw [anyBoundToActive_eq_true]
    constructor
    · rintro ⟨n, a, bound, active⟩
      exact ⟨n, a, bound.range, .inl all, bound, active⟩
    · rintro ⟨n, a, -, -, bound, active⟩
      exact ⟨n, a, bound, active⟩
  · rename_i one
    rw [boundToActive_eq_true]
    constructor
    · rintro ⟨a, bound, active⟩
      exact ⟨dst, a, bound.range, .inr rfl, bound, active⟩
    · rintro ⟨n, a, -, reach, bound, active⟩
      obtain rfl : dst = n := reach.resolve_left one
      exact ⟨a, bound, active⟩

theorem destinationIdle_eq_false (s : State) (f : Frame) :
    destinationIdle s f = false ↔ ReachesActiveArm s f.dst := by
  rw [← destination_eq_true, destinationIdle]
  split <;> simp

/-! ## The checks of a relay frame (R30, R33) -/

theorem ownershipRefuses_eq_true (s : State) (f : Frame) :
    ownershipRefuses s f = true ↔ (f.kind = 0x20 ∨ f.kind = 0x21) ∧ ReachesActiveArm s f.dst := by
  rw [ownershipRefuses, Bool.and_eq_true, destination_eq_true]
  simp only [isOrderKind, Bool.or_eq_true, decide_eq_true_eq]
  rfl

theorem filterMatches_eq_true (x : Filter) (f : Frame) : filterMatches x f = true ↔ Matches x f := by
  unfold filterMatches Matches
  cases kindClass f.kind <;> simp [and_assoc]

/-- The first element of a table that passes a test is the passing one of lowest index. -/
theorem find?_table_eq_some {α : Type} {n : Nat} (v : Vector α n) (p : α → Bool) (x : α) :
    v.toList.find? p = some x ↔
      ∃ i : Fin n, sel v i = x ∧ p (sel v i) = true ∧ ∀ j < i, ¬ p (sel v j) = true := by
  rw [List.find?_eq_some_iff_getElem]
  simp only [Vector.length_toList, Vector.getElem_toList, sel]
  constructor
  · rintro ⟨passes, i, size, rfl, before⟩
    exact ⟨⟨i, size⟩, rfl, passes, fun j below => by simpa using before j below⟩
  · rintro ⟨i, rfl, passes, before⟩
    exact ⟨passes, i, i.isLt, rfl, fun j below => by simpa using before ⟨j, by omega⟩ below⟩

/-- The first filter that matches decides (R33). -/
theorem filtersRefuse_eq_true (s : State) (f : Frame) : filtersRefuse s f = true ↔
    ∃ x, s.relay.filters.toList.find? (fun x => filterMatches x f) = some x ∧
      (x.action = .block ∨ x.action = .relayWhenIdle ∧ ReachesActiveArm s f.dst) := by
  rw [filtersRefuse]
  cases s.relay.filters.toList.find? (fun x => filterMatches x f) with
  | none => simp
  | some x => cases action : x.action <;> simp [action, destinationIdle_eq_false]

theorem filtersRefuse_iff_lowest (s : State) (f : Frame) : filtersRefuse s f = true ↔
    ∃ i : Fin 8, Matches (sel s.relay.filters i) f ∧
      (∀ j : Fin 8, j < i → ¬ Matches (sel s.relay.filters j) f) ∧
      ((sel s.relay.filters i).action = .block ∨
        (sel s.relay.filters i).action = .relayWhenIdle ∧ ReachesActiveArm s f.dst) := by
  simp only [filtersRefuse_eq_true, find?_table_eq_some, filterMatches_eq_true]
  constructor
  · rintro ⟨_, ⟨i, rfl, matched, before⟩, refuses⟩
    exact ⟨i, matched, before, refuses⟩
  · rintro ⟨i, matched, before, refuses⟩
    exact ⟨_, ⟨i, rfl, matched, before⟩, refuses⟩

/-! ## Relay frames are answered or placed (R29, R34) -/

theorem isTerminalStop_eq_true (kind : Byte) :
    isTerminalStop kind = true ↔ kind = 0x22 ∨ kind = 0x23 := by
  simp only [isTerminalStop, Bool.or_eq_true, decide_eq_true_eq]
  rfl

theorem normalRoom_eq_true (s : State) (p : DPort) :
    normalRoom s p = true ↔ (s.portD p).normal.length < 16 := decide_eq_true_iff

/-- A refused frame that is no terminal stop is answered BLOCKED (R29). -/
theorem relayAct_refused {s : State} {f : Frame} (stop : ¬ (f.kind = 0x22 ∨ f.kind = 0x23))
    (refused : ownershipRefuses s f = true ∨ filtersRefuse s f = true) :
    relayAct f s = result { src := f.src, seq := f.seq } f.kind .blocked s := by
  rw [relayAct, if_neg (by rwa [isTerminalStop_eq_true]), if_pos (by rwa [Bool.or_eq_true])]

/-- A terminal stop, and a frame that neither check refuses, is routed (R29). -/
theorem relayAct_routed {s : State} {f : Frame} (h : (f.kind = 0x22 ∨ f.kind = 0x23) ∨
    ¬ (ownershipRefuses s f = true ∨ filtersRefuse s f = true)) : relayAct f s = routeFrame f s := by
  simp only [relayAct, isTerminalStop_eq_true, Bool.or_eq_true]
  by_cases stop : f.kind = 0x22 ∨ f.kind = 0x23
  · rw [if_pos stop]
  · rw [if_neg stop, if_neg (h.resolve_left stop)]

/-- The route to the port of a valid entry (R34, R12). -/
theorem routeFrame_mapped {s : State} {f : Frame} (h : (nodeAt s f.dst).valid = true) :
    routeFrame f s = if (s.portD (nodeAt s f.dst).port).normal.length < 16 then
        joinNormal (nodeAt s f.dst).port { frame := f, owner := .relayed } s
      else result { src := f.src, seq := f.seq } f.kind .busy s := by
  simp only [routeFrame, h, if_true, normalRoom_eq_true]

/-- The route to both ports (R34, R12). -/
theorem routeFrame_unmapped {s : State} {f : Frame} (h : (nodeAt s f.dst).valid = false) :
    routeFrame f s =
      if (s.portD .d0).normal.length < 16 ∧ (s.portD .d1).normal.length < 16 then
        joinNormal .d1 { frame := f, owner := .relayed }
          (joinNormal .d0 { frame := f, owner := .relayed } s)
      else result { src := f.src, seq := f.seq } f.kind .busy s := by
  simp only [routeFrame, h, Bool.false_eq_true, if_false, Bool.and_eq_true, normalRoom_eq_true]

theorem exec_relayFrame {s : State} {f : Frame} (next : IsNext s (.relay f)) :
    exec (.relayFrame f) s = .next (relayAct f (s.take (.relay f))) :=
  congrArg Host.Outcome.next (takeU_next _ next)

/-- Settles O18: the two checks read the destination alike, and a frame is routed in the state that has given
back its slot, where checks, entries and D ports are as before. -/
theorem relayFramesAreCheckedAndPlaced : Obligations.RelayFramesAreCheckedAndPlaced := by
  unfold Obligations.RelayFramesAreCheckedAndPlaced
  refine ⟨ownershipRefuses_eq_true, filtersRefuse_iff_lowest, ?_⟩
  intro s f next
  dsimp only
  have refuse := relayAct_refused (s := s.take (.relay f)) (f := f)
  have routed := relayAct_routed (s := s.take (.relay f)) (f := f)
  have mapped := routeFrame_mapped (s := s.take (.relay f)) (f := f)
  have both := routeFrame_unmapped (s := s.take (.relay f)) (f := f)
  rw [exec_relayFrame next]
  refine ⟨fun stop refused => congrArg _ (refuse stop refused),
    fun passes valid room => congrArg _ ((routed passes).trans ((mapped valid).trans (if_pos room))),
    fun passes valid full => congrArg _ ((routed passes).trans ((mapped valid).trans (if_neg full))),
    fun passes unmapped room0 room1 =>
      congrArg _ ((routed passes).trans ((both unmapped).trans (if_pos ⟨room0, room1⟩))),
    fun passes unmapped full =>
      congrArg _ ((routed passes).trans ((both unmapped).trans (if_neg full))), fun all => ?_⟩
  rw [all]
  exact nodeAt_zero_invalid s

end Sys2Proof.Machine

/-! ## Field reports (R24 to R27) -/

namespace Sys2Proof.Machine

/-- The report a role's node sends, by kind and payload length (R25). -/
theorem fitsRole_eq_true (r : Role) (f : Frame) :
    fitsRole r f = true ↔ reportShape r = some (f.kind, f.payload.length) := by
  have shape (kind : Byte) (n : Nat) :
      (decide (f.kind = kind) && decide (f.payload.length = n)) = true ↔
        some (kind, n) = some (f.kind, f.payload.length) := by
    simp only [Bool.and_eq_true, decide_eq_true_eq, Option.some.injEq, Prod.mk.injEq,
      eq_comm (a := kind), eq_comm (a := n)]
  cases r with
  | meterGasoline | meterEthanol => exact shape 0x10 6
  | valveGasoline | valveEthanol => exact shape 0x11 4
  | injector => exact shape 0x12 2
  | permit => exact shape 0x13 1
  | passive => simp [fitsRole, reportShape]

/-- The first report of a port is taken (R24). -/
theorem exec_fieldReport {s : State} {p : DPort} {f : Frame} {rest : List Frame}
    (queue : (s.portD p).reports = f :: rest) :
    exec (.fieldReport p f) s =
      .next (reportAct p f (s.setPortD p { s.portD p with reports := rest })) := by
  have taken : takeFrom (fun _ => true) (s.portD p).reports f = (rest, true) := by
    rw [queue]
    simp [takeFrom, turnIn, dropItem]
  change Host.Outcome.next _ = _
  rw [taken]
  rfl

section
variable {s : State} {p : DPort} {f : Frame}

theorem reportAct_unknown_passed (invalid : (nodeAt s f.src).valid = false)
    (pass : s.mgmt.settings.passUnknown = true) :
    reportAct p f s = offerCopy p (copyUpOf s f) (countD p .unknownSource s) := by
  simp [reportAct, invalid, pass]

theorem reportAct_unknown (invalid : (nodeAt s f.src).valid = false)
    (drop : s.mgmt.settings.passUnknown = false) : reportAct p f s = countD p .unknownSource s := by
  simp [reportAct, invalid, drop]

theorem reportAct_misfit (valid : (nodeAt s f.src).valid = true)
    (misfit : reportShape (nodeAt s f.src).role ≠ some (f.kind, f.payload.length)) :
    reportAct p f s = countD p .misdirected s := by
  simp [reportAct, valid, fitsRole_eq_true, misfit]

theorem reportAct_fits (valid : (nodeAt s f.src).valid = true)
    (fits : reportShape (nodeAt s f.src).role = some (f.kind, f.payload.length)) :
    reportAct p f s = dispatchReport (nodeAt s f.src) f
      (if (nodeAt s f.src).copyUp then offerCopy p (copyUpOf s f) s else s) := by
  simp [reportAct, valid, fitsRole_eq_true, fits]

end

section
variable {e : NodeEntry} (f : Frame) (s : State)

theorem dispatchReport_meter {st : Stream} (h : e.role = meterRole st) :
    dispatchReport e f s = handSample (sampleOf e st f) s := by
  cases st <;> simp only [dispatchReport, h, meterRole]

theorem dispatchReport_valve {st : Stream} (h : e.role = valveRole st) :
    dispatchReport e f s = handValveRpt (valveRptOf e st f) s := by
  cases st <;> simp only [dispatchReport, h, valveRole]

theorem dispatchReport_injector (h : e.role = .injector) :
    dispatchReport e f s = handStrokeRpt (strokeRptOf e f) s := by
  simp only [dispatchReport, h]

theorem dispatchReport_permit (h : e.role = .permit) :
    dispatchReport e f s = handPermitRpt (octet f.payload 0) s := by
  simp only [dispatchReport, h]

end

/-- Taking a report from its list leaves the Node Map. -/
theorem nodeAt_setPortD (s : State) (p : DPort) (x : PortD) (n : Byte) :
    nodeAt (s.setPortD p x) n = nodeAt s n := by
  simp only [nodeAt, setPortD_relay]

theorem copyUpOf_setPortD (s : State) (p : DPort) (x : PortD) (f : Frame) :
    copyUpOf (s.setPortD p x) f = copyUpOf s f := by
  simp only [copyUpOf, setPortD_mgmt]

/-- Settles O19: the report is taken from its list and judged by its source's entry, which that leaves. -/
theorem fieldReportsReachTheirOwner : Obligations.FieldReportsReachTheirOwner := by
  unfold Obligations.FieldReportsReachTheirOwner
  refine ⟨fun s p f rest queue => ?_, fun s p f rest queue => ?_⟩
  · dsimp only
    rw [exec_fieldReport queue, ← copyUpOf_setPortD s p { s.portD p with reports := rest },
      ← nodeAt_setPortD s p { s.portD p with reports := rest }]
    refine ⟨fun invalid pass => ?_, fun invalid drop => ?_, fun valid misfit => ?_⟩
    · rw [reportAct_unknown_passed invalid (by rwa [setPortD_mgmt])]
    · rw [reportAct_unknown invalid (by rwa [setPortD_mgmt])]
    · rw [reportAct_misfit valid misfit]
  · dsimp only
    rw [exec_fieldReport queue, ← copyUpOf_setPortD s p { s.portD p with reports := rest },
      ← nodeAt_setPortD s p { s.portD p with reports := rest }]
    intro valid fits
    rw [reportAct_fits valid fits]
    refine ⟨fun st role => ?_, fun st role => ?_, fun role => ?_, fun role => ?_⟩
    · rw [dispatchReport_meter _ _ role]
      rfl
    · rw [dispatchReport_valve _ _ role]
      rfl
    · rw [dispatchReport_injector _ _ role]
      rfl
    · rw [dispatchReport_permit _ _ role]
      rfl

end Sys2Proof.Machine

/-! ## Requests that are judged (R156) -/

namespace Sys2Proof.Machine

section
variable {s : State} {h : ReqHead} {r : Request} {judge : State → Judged} {c : Code}
  (next : NextRequest s h r)
  (run : exec (commandOf (.request h r)) s = .next (request h r judge s))
include next run

/-- A request that is judged is answered by its judgment. -/
theorem exec_judged {j : Judged} (judged : judge (s.take (.request h r)) = j) :
    exec (commandOf (.request h r)) s = .next (result h (Request.kindCode r) j.1 j.2) := by
  rw [run, request_next judge next, judged, answered]

theorem refuses_of_judged (judged : judge (s.take (.request h r)) = (c, s.take (.request h r))) :
    Refuses s h r c := exec_judged next run judged

theorem carriesOut_of_judged {u : State → State}
    (judged : judge (s.take (.request h r)) = (.done, u (s.take (.request h r)))) :
    CarriesOut s h r u := exec_judged next run judged

end

/-- The answer joins a Port U that is as the taken frame left it. -/
theorem replied_result {s t : State} {x : UItem} {h : ReqHead} (kind : Byte) (c : Code)
    (portU : t.portU = (s.take x).portU) (mgmt : t.mgmt = s.mgmt) :
    Replied s (result h kind c t) x (resultFrame s h kind c) := by
  simp only [Replied, result, answer, joinU, answerFrame, resultFrame, portU, mgmt, State.take]

/-! ## Fields and indexes in their ranges -/

/-- A field out of range is read as none. -/
theorem eq_none_of_isSome_iff {α : Type} {o : Option α} {p : Prop} (h : o.isSome = true ↔ p)
    (hp : ¬ p) : o = none := Option.not_isSome_iff_eq_none.1 (mt h.1 hp)

theorem exists_of_isSome_iff {α : Type} {o : Option α} {p : Prop} (h : o.isSome = true ↔ p)
    (hp : p) : ∃ x, o = some x := Option.isSome_iff_exists.1 (h.2 hp)

theorem yesNo_eq (b : Byte) : yesNo b = if b.toNat ≤ 1 then some (decide (b = 1)) else none := by
  have one : b = 1 ↔ b.toNat = 1 := BitVec.toNat_inj.symm
  simp only [yesNo, one]
  split
  · rename_i h
    simp [h]
  · rename_i h
    simp [h]
  · rename_i not0 not1
    exact (if_neg fun h => (Nat.le_one_iff_eq_zero_or_eq_one.1 h).elim not0 not1).symm

theorem isSome_yesNo (b : Byte) : (yesNo b).isSome = true ↔ b.toNat ≤ 1 := by
  rw [yesNo_eq]
  split <;> simp [*]

theorem isSome_roleOf (b : Byte) : (roleOf b).isSome = true ↔ b.toNat ≤ 6 := by
  unfold roleOf
  split <;> grind

theorem isSome_portOf (b : Byte) : (portOf b).isSome = true ↔ b.toNat ≤ 1 := by
  unfold portOf
  split <;> grind

theorem isSome_actionOf (b : Byte) : (actionOf b).isSome = true ↔ b.toNat ≤ 2 := by
  unfold actionOf
  split <;> grind

theorem isSome_armOf (b : Byte) : (armOf b).isSome = true ↔ b.toNat ≤ 7 :=
  Option.isSome_dite.trans Nat.lt_succ_iff

theorem isSome_slotOf (b : Byte) : (slotOf b).isSome = true ↔ b.toNat ≤ 15 :=
  Option.isSome_dite.trans Nat.lt_succ_iff

theorem isSome_channelOf (b : Byte) : (channelOf b).isSome = true ↔ b.toNat ≤ 11 :=
  Option.isSome_dite.trans Nat.lt_succ_iff

theorem isSome_nodeIndex (b : Byte) : (nodeIndex b).isSome = true ↔ IndexFits .nodeMap b :=
  Option.isSome_dite

theorem isSome_filterIndex (b : Byte) : (filterIndex b).isSome = true ↔ IndexFits .relayFilter b :=
  isSome_armOf b

theorem isSome_recipeIndex (b : Byte) : (recipeIndex b).isSome = true ↔ IndexFits .recipe b :=
  Option.isSome_dite.trans Nat.lt_succ_iff

theorem inRange_eq_true (lo hi n : Nat) : inRange lo hi n = true ↔ Within lo hi n := decide_eq_true_iff

/-- A field read after another, that does not depend on its value. -/
theorem isSome_bind_of_forall {α β : Type} {p : Prop} (o : Option α) (f : α → Option β)
    (h : ∀ x, (f x).isSome = true ↔ p) : (o.bind f).isSome = true ↔ o.isSome = true ∧ p := by
  cases o <;> simp [h]

end Sys2Proof.Machine

/-! ## RELAY FILTER, RECIPE and SETTINGS writes (R32, R38, R39, R158) -/

namespace Sys2Proof.Machine

theorem isSome_filterOf (r : RawFilter) :
    (filterOf r).isSome = true ↔ r.enabled.toNat ≤ 1 ∧ r.action.toNat ≤ 2 := by
  rw [← isSome_yesNo, ← isSome_actionOf]
  exact isSome_bind_of_forall _ _ fun _ => by
    cases actionOf r.action <;> simp

/-- No two lines carry the same additive code (R38). -/
theorem distinctCodes_eq_true (ls : List RecipeLine) :
    distinctCodes ls = true ↔ (ls.map (fun l => l.code)).Nodup := by
  induction ls with
  | nil => simp [distinctCodes]
  | cons l ls ih => simp [distinctCodes, ih]

theorem distinctCodes_linesOf (r : RawRecipe) : distinctCodes (linesOf r) = true ↔
    ((r.lines.toList.take r.lineCount.toNat).map (fun l => l.code)).Nodup := by
  have codes : (linesOf r).map (fun l => l.code) =
      ((r.lines.toList.take r.lineCount.toNat).map (fun l => l.code)).map BitVec.toNat := by
    simp only [linesOf, List.map_map, Function.comp_def]
  rw [distinctCodes_eq_true, codes]
  simp only [List.Nodup, List.pairwise_map, ne_eq, BitVec.toNat_inj]

/-- A line of a valid recipe in its ranges (R38). -/
theorem all_linesOf (r : RawRecipe) :
    (linesOf r).all (fun l => inRange 1 255 l.code && inRange 1 9999 l.dose &&
      (yesNo l.mandatory).isSome) = true ↔
    ∀ l ∈ r.lines.toList.take r.lineCount.toNat,
      1 ≤ l.code.toNat ∧ Within 1 9999 l.dose.toNat ∧ l.mandatory.toNat ≤ 1 := by
  have code (l : RawLine) : Within 1 255 l.code.toNat ↔ 1 ≤ l.code.toNat := by
    unfold Within
    omega
  simp only [linesOf, List.all_map, List.all_eq_true, Function.comp_apply, Bool.and_eq_true,
    inRange_eq_true, isSome_yesNo, code, and_assoc]

/-- The record that a RECIPE write transfers. -/
def recipeRead (r : RawRecipe) (valid : Bool) : Recipe :=
  { valid, ratio := r.ratio.toNat, startFlow := r.startFlow.toNat, bulkFlow := r.bulkFlow.toNat,
    topFlow := r.topFlow.toNat, startVolume := r.startVolume.toNat,
    taperVolume := r.taperVolume.toNat, closeAhead := r.closeAhead.toNat,
    trimBand := r.trimBand.toNat, trimStep := r.trimStep.toNat, trimLimit := r.trimLimit.toNat,
    devLimit := r.devLimit.toNat, devCount := r.devCount.toNat, lines := linesOf r }

theorem recipeOf_eq (r : RawRecipe) : recipeOf r = (yesNo r.valid).bind fun valid =>
    if r.lineCount.toNat ≤ 4 ∧ (valid = false ∨ recipeInRange (recipeRead r valid) = true) then
      some (recipeRead r valid) else none := rfl

/-- With valid = yes the rules of R38 apply. -/
theorem recipeFits_iff_of_valid {r : RawRecipe} (valid : r.valid = 1) : RecipeFits r ↔
    r.lineCount.toNat ≤ 4 ∧ recipeInRange (recipeRead r true) = true := by
  simp only [RecipeFits, recipeInRange, Bool.and_eq_true, inRange_eq_true, decide_eq_true_eq, and_assoc]
  simp only [recipeRead, all_linesOf, distinctCodes_linesOf]
  simp [valid, Within, and_assoc]

/-- With valid = no the line count alone is judged (R39). -/
theorem recipeFits_iff_of_invalid {r : RawRecipe} (valid : r.valid ≠ 1) : RecipeFits r ↔
    r.valid.toNat ≤ 1 ∧ r.lineCount.toNat ≤ 4 :=
  ⟨fun ⟨octet, count, _⟩ => ⟨octet, count⟩, fun ⟨octet, count⟩ => ⟨octet, count, (absurd · valid)⟩⟩

theorem isSome_recipeOf (r : RawRecipe) : (recipeOf r).isSome = true ↔ RecipeFits r := by
  rw [recipeOf_eq, yesNo_eq]
  by_cases valid : r.valid = 1
  · simp [recipeFits_iff_of_valid valid, valid]
  · by_cases octet : r.valid.toNat ≤ 1
    · rw [recipeFits_iff_of_invalid valid, if_pos octet, decide_eq_false valid]
      simp [octet]
    · simp [recipeFits_iff_of_invalid valid, octet]

/-- The record that a SETTINGS write transfers. -/
def settingsRead (r : RawSettings) : Settings :=
  { controller := r.controller, passUnknown := decide (r.passUnknown = 1),
    pinLevel := r.pinLevel.toNat, responseLimit := r.response.toNat,
    closeLimit := r.closeLimit.toNat, permitLimit := r.permit.toNat,
    retryInterval := r.retry.toNat }

theorem settingsFit_iff (r : RawSettings) : SettingsFit r ↔
    r.passUnknown.toNat ≤ 1 ∧ settingsInRange (settingsRead r) = true := by
  simp only [SettingsFit, settingsInRange, settingsRead, Bool.and_eq_true, inRange_eq_true,
    isController_eq_true]
  constructor
  · rintro ⟨controller, octet, pin, response, close, permit, retry⟩
    exact ⟨octet, ⟨⟨⟨⟨controller, pin⟩, response⟩, close⟩, permit⟩, retry⟩
  · rintro ⟨octet, ⟨⟨⟨⟨controller, pin⟩, response⟩, close⟩, permit⟩, retry⟩
    exact ⟨controller, octet, pin, response, close, permit, retry⟩

theorem settingsOf_fits {r : RawSettings} (fits : SettingsFit r) :
    settingsOf r = some (settingsRead r) := by
  obtain ⟨octet, ranges⟩ := (settingsFit_iff r).1 fits
  simp only [settingsOf, yesNo_eq, if_pos octet]
  exact if_pos ranges

theorem settingsOf_misfits {r : RawSettings} (misfit : ¬ SettingsFit r) : settingsOf r = none := by
  rw [settingsFit_iff] at misfit
  simp only [settingsOf, yesNo_eq]
  by_cases octet : r.passUnknown.toNat ≤ 1
  · rw [if_pos octet]
    exact if_neg fun ranges => misfit ⟨octet, ranges⟩
  · rw [if_neg octet]
    rfl

/-! ### Their judgments -/

theorem judgeFilterWrite_badIndex {i : Byte} (r : RawFilter) (s : State)
    (h : ¬ IndexFits .relayFilter i) : judgeFilterWrite i r s = (.badIndex, s) := by
  simp only [judgeFilterWrite, eq_none_of_isSome_iff (isSome_filterIndex i) h]

theorem judgeFilterWrite_badValue {i : Byte} {r : RawFilter} (s : State)
    (index : IndexFits .relayFilter i) (h : ¬ (r.enabled.toNat ≤ 1 ∧ r.action.toNat ≤ 2)) :
    judgeFilterWrite i r s = (.badValue, s) := by
  obtain ⟨n, at_n⟩ := exists_of_isSome_iff (isSome_filterIndex i) index
  simp only [judgeFilterWrite, at_n, eq_none_of_isSome_iff (isSome_filterOf r) h]

theorem judgeRecipeWrite_badIndex {i : Byte} (r : RawRecipe) (s : State)
    (h : ¬ IndexFits .recipe i) : judgeRecipeWrite i r s = (.badIndex, s) := by
  simp only [judgeRecipeWrite, eq_none_of_isSome_iff (isSome_recipeIndex i) h]

theorem judgeRecipeWrite_badValue {i : Byte} {r : RawRecipe} (s : State)
    (index : IndexFits .recipe i) (h : ¬ RecipeFits r) :
    judgeRecipeWrite i r s = (.badValue, s) := by
  obtain ⟨n, at_n⟩ := exists_of_isSome_iff (isSome_recipeIndex i) index
  simp only [judgeRecipeWrite, at_n, eq_none_of_isSome_iff (isSome_recipeOf r) h]

/-- The record is replaced and ALERT_N judged by its pin level (R158, R166). -/
theorem judgeSettingsWrite_done {r : RawSettings} (s : State) (fits : SettingsFit r) :
    judgeSettingsWrite 0 r s = (.done, { s with
      mgmt := { s.mgmt with settings := settingsRead r }
      rep := { s.rep with alertOut := alertLine r.pinLevel.toNat s.rep.alerts } }) := by
  simp only [judgeSettingsWrite, settingsOf_fits fits]
  rfl

/-- Settles O21: each write is judged by whether its index and its record are read. -/
theorem filterRecipeAndSettingsWrites : Obligations.FilterRecipeAndSettingsWrites := by
  unfold Obligations.FilterRecipeAndSettingsWrites
  refine ⟨fun s h i =>
    ⟨fun r next => ⟨fun index => ?_, fun index misfit => ?_, fun index enabled action => ?_⟩,
      fun r next => ⟨fun index => ?_, fun index misfit => ?_, fun index fits => ?_⟩⟩,
    fun s h i r next => ⟨fun index => ?_, fun index misfit => ?_, fun index fits => ?_⟩⟩
  · exact refuses_of_judged next rfl (judgeFilterWrite_badIndex r _ index)
  · exact refuses_of_judged next rfl (judgeFilterWrite_badValue _ index misfit)
  · obtain ⟨n, at_n⟩ := exists_of_isSome_iff (isSome_filterIndex i) index
    obtain ⟨x, read⟩ := exists_of_isSome_iff (isSome_filterOf r) ⟨enabled, action⟩
    refine ⟨n, x, at_n, read, carriesOut_of_judged next rfl ?_⟩
    simp only [judgeFilterWrite, at_n, read]
  · exact refuses_of_judged next rfl (judgeRecipeWrite_badIndex r _ index)
  · exact refuses_of_judged next rfl (judgeRecipeWrite_badValue _ index misfit)
  · obtain ⟨n, at_n⟩ := exists_of_isSome_iff (isSome_recipeIndex i) index
    obtain ⟨x, read⟩ := exists_of_isSome_iff (isSome_recipeOf r) fits
    refine ⟨n, x, at_n, read, carriesOut_of_judged next rfl ?_⟩
    simp only [judgeRecipeWrite, at_n, read]
  · exact refuses_of_judged next rfl (if_pos index)
  · subst index
    refine refuses_of_judged next rfl ?_
    simp only [judgeSettingsWrite, settingsOf_misfits misfit]
    rfl
  · subst index
    exact carriesOut_of_judged next rfl (judgeSettingsWrite_done _ fits)

end Sys2Proof.Machine

/-! ## NODE MAP writes (R20 to R23) -/

namespace Sys2Proof.Machine

theorem isSome_nodeOf (r : RawNode) : (nodeOf r).isSome = true ↔ NodeFits r := by
  unfold NodeFits
  rw [← isSome_yesNo, ← isSome_roleOf, ← isSome_armOf, ← isSome_slotOf, ← isSome_channelOf,
    ← isSome_portOf, ← isSome_yesNo]
  unfold nodeOf
  refine isSome_bind_of_forall _ _ fun _ => isSome_bind_of_forall _ _ fun _ =>
    isSome_bind_of_forall _ _ fun _ => isSome_bind_of_forall _ _ fun _ =>
    isSome_bind_of_forall _ _ fun _ => isSome_bind_of_forall _ _ fun _ => ?_
  cases yesNo r.copyUp <;> simp

theorem nodeAt_of_nodeIndex {n : Byte} {i : Fin 223} (h : nodeIndex n = some i) (s : State) :
    nodeAt s n = sel s.relay.nodeMap i := by
  simp only [nodeAt, h]

/-! ### The checks of R22 -/

theorem appliesArm_eq_true (r : Role) : appliesArm r = true ↔ namesArm r := by
  rw [appliesArm, Bool.or_eq_true, namesArm_iff_isSome]

theorem appliesSlot_eq_true (r : Role) : appliesSlot r = true ↔ isMeterRole r := streamOfMeter_isSome r

theorem streamOfValve_isSome (r : Role) : (streamOfValve r).isSome = true ↔ isValveRole r := by
  cases r <;> simp [streamOfValve, isValveRole]

theorem changesBinding_eq_true (old new : NodeEntry) :
    changesBinding old new = true ↔ Rebinds old new := by
  simp only [changesBinding, Rebinds, Bool.or_eq_true, Bool.and_eq_true, decide_eq_true_eq,
    appliesArm_eq_true, appliesSlot_eq_true, appliesChannel, or_assoc]

theorem mem_allArms (a : Arm) : a ∈ allArms := by
  revert a
  decide

theorem entryInUse_eq_true (s : State) (n : Byte) (e : NodeEntry) :
    entryInUse s n e = true ↔ Involves s n e := by
  simp only [entryInUse, Involves, Bool.or_eq_true, Bool.and_eq_true, decide_eq_true_eq,
    appliesArm_eq_true, appliesChannel, streamOfValve_isSome, List.any_eq_true, mem_injRec_arms,
    mem_allArms, true_and, or_assoc]
  simp only [Option.isSome_iff_ne_none]

/-! ### The write is judged (R20) -/

section
variable {n : Byte} {i : Fin 223} {r : RawNode} {e : NodeEntry} {s : State}

theorem judgeNodeWrite_badIndex (h : ¬ IndexFits .nodeMap n) :
    judgeNodeWrite n r s = (.badIndex, s) := by
  simp only [judgeNodeWrite, eq_none_of_isSome_iff (isSome_nodeIndex n) h]

theorem judgeNodeWrite_badValue (index : IndexFits .nodeMap n) (h : ¬ NodeFits r) :
    judgeNodeWrite n r s = (.badValue, s) := by
  obtain ⟨i, at_i⟩ := exists_of_isSome_iff (isSome_nodeIndex n) index
  simp only [judgeNodeWrite, at_i, eq_none_of_isSome_iff (isSome_nodeOf r) h]

variable (index : nodeIndex n = some i) (read : nodeOf r = some e)
include index read

theorem judgeNodeWrite_read : judgeNodeWrite n r s =
    if nodeConflict s n e = true then (.conflict, s)
    else if (!changesBinding (nodeAt s n) e) = true then (.done, setNode i e s)
    else if (entryInUse s n (nodeAt s n) || entryInUse s n e) = true then (.inUse, s)
    else (.done, settleAlerts (rebind e (rebind (nodeAt s n) (setNode i e s)))) := by
  rw [nodeAt_of_nodeIndex index]
  simp only [judgeNodeWrite, index, read]

theorem judgeNodeWrite_conflict (h : Conflicts s n e) : judgeNodeWrite n r s = (.conflict, s) := by
  rw [judgeNodeWrite_read index read, if_pos ((nodeConflict_eq_true ..).2 h)]

variable (free : ¬ Conflicts s n e)
include free

/-- A write that changes no binding replaces the entry alone (R22). -/
theorem judgeNodeWrite_same (h : ¬ Rebinds (nodeAt s n) e) :
    judgeNodeWrite n r s = (.done, setNode i e s) := by
  rw [judgeNodeWrite_read index read, if_neg (mt (nodeConflict_eq_true ..).1 free),
    if_pos (by simpa [← changesBinding_eq_true] using h)]

variable (rebinds : Rebinds (nodeAt s n) e)
include rebinds

theorem judgeNodeWrite_inUse (h : Involves s n (nodeAt s n) ∨ Involves s n e) :
    judgeNodeWrite n r s = (.inUse, s) := by
  rw [judgeNodeWrite_read index read, if_neg (mt (nodeConflict_eq_true ..).1 free),
    if_neg (by simpa [← changesBinding_eq_true] using rebinds),
    if_pos (by rwa [Bool.or_eq_true, entryInUse_eq_true, entryInUse_eq_true])]

theorem judgeNodeWrite_rebinds (h : ¬ Involves s n (nodeAt s n)) (h' : ¬ Involves s n e) :
    judgeNodeWrite n r s =
      (.done, settleAlerts (rebind e (rebind (nodeAt s n) (setNode i e s)))) := by
  rw [judgeNodeWrite_read index read, if_neg (mt (nodeConflict_eq_true ..).1 free),
    if_neg (by simpa [← changesBinding_eq_true] using rebinds),
    if_neg (by rw [Bool.or_eq_true, entryInUse_eq_true, entryInUse_eq_true]; exact not_or.2 ⟨h, h'⟩)]

end

/-! ### What a rebinding clears (R23) -/

/-- What a rebinding leaves: all but the run state of meter slots, the valve channels, the settled flags
and the permit bits. -/
def reboundFrame (s : State) :=
  ((s.mgmt, s.portU, s.d0, s.d1, s.relay), (s.arms.ctx, s.header, s.inj, s.stop, s.rep))

theorem recheckSettled_reboundFrame (a : Arm) (s : State) :
    reboundFrame (recheckSettled a s) = reboundFrame s := by
  unfold recheckSettled
  split <;> rfl

theorem meter_recheckSettled (a : Arm) (s : State) : (recheckSettled a s).meter = s.meter := by
  unfold recheckSettled
  split <;> rfl

theorem chan_recheckSettled (a b : Arm) (st : Stream) (s : State) :
    (recheckSettled a s).chan b st = s.chan b st := by
  unfold recheckSettled
  split
  · rfl
  · cases st <;> rfl

theorem permits_recheckSettled (a : Arm) (s : State) :
    (recheckSettled a s).arms.permits = s.arms.permits ∧
      (recheckSettled a s).arms.permitTimer = s.arms.permitTimer := by
  unfold recheckSettled
  split <;> exact ⟨rfl, rfl⟩

theorem clearHeld_reboundFrame (a : Arm) (st : Stream) (s : State) :
    reboundFrame (clearHeld a st s) = reboundFrame s := by
  rw [clearHeld, recheckSettled_reboundFrame]
  cases st <;> rfl

theorem meter_clearHeld (a : Arm) (st : Stream) (s : State) : (clearHeld a st s).meter = s.meter := by
  rw [clearHeld, meter_recheckSettled, setChan_meter]

theorem permits_clearHeld (a : Arm) (st : Stream) (s : State) :
    (clearHeld a st s).arms.permits = s.arms.permits ∧
      (clearHeld a st s).arms.permitTimer = s.arms.permitTimer := by
  obtain ⟨bits, timer⟩ :=
    permits_recheckSettled a (s.setChan a st { s.chan a st with held := none })
  rw [setChan_arms] at bits timer
  exact ⟨bits, timer⟩

theorem held_clearHeld (a b : Arm) (st su : Stream) (s : State) :
    ((clearHeld a st s).chan b su).held = if a = b ∧ st = su then none else (s.chan b su).held := by
  rw [clearHeld, chan_recheckSettled]
  split
  · rename_i same
    obtain ⟨rfl, rfl⟩ := same
    rw [chan_setChan_same]
  · rename_i other
    rw [chan_setChan_ne _ _ _ _ _ _ (Decidable.not_and_iff_not_or_not.1 other)]

theorem rebind_invalid {e : NodeEntry} (s : State) (h : ¬ e.valid = true) : rebind e s = s := if_neg h

section
variable {e : NodeEntry} (s : State) (valid : e.valid = true)
include valid

theorem rebind_meter (h : isMeterRole e.role) : rebind e s = unbindSlot e.slot s := by
  obtain h | h := h <;> simp only [rebind, valid, h, if_true]

theorem rebind_valve {st : Stream} (h : e.role = valveRole st) :
    rebind e s = clearHeld e.arm st s := by
  cases st <;> simp only [rebind, valid, h, valveRole, if_true]

theorem rebind_permit (h : e.role = .permit) : rebind e s = clearPermits s := by
  simp only [rebind, valid, h, if_true]

end

/-- A rebinding clears a meter slot, a held report or the permit bits, or it does nothing. -/
theorem rebind_cases (e : NodeEntry) (s : State) :
    (∃ i, rebind e s = unbindSlot i s) ∨ (∃ a st, rebind e s = clearHeld a st s) ∨
      rebind e s = clearPermits s ∨ rebind e s = s := by
  by_cases valid : e.valid = true
  · cases role : e.role with
    | meterGasoline => exact .inl ⟨_, rebind_meter s valid (.inl role)⟩
    | meterEthanol => exact .inl ⟨_, rebind_meter s valid (.inr role)⟩
    | valveGasoline => exact .inr (.inl ⟨_, .gasoline, rebind_valve s valid role⟩)
    | valveEthanol => exact .inr (.inl ⟨_, .ethanol, rebind_valve s valid role⟩)
    | permit => exact .inr (.inr (.inl (rebind_permit s valid role)))
    | injector | passive => exact .inr (.inr (.inr (by simp only [rebind, role, ite_self])))
  · exact .inr (.inr (.inr (rebind_invalid s valid)))

theorem rebind_reboundFrame (e : NodeEntry) (s : State) :
    reboundFrame (rebind e s) = reboundFrame s := by
  obtain ⟨i, h⟩ | ⟨a, st, h⟩ | h | h := rebind_cases e s <;> rw [h]
  · rfl
  · exact clearHeld_reboundFrame a st s
  · rfl

/-- The run state of a slot that a rebinding has cleared (R23, R54). -/
def unboundRun (r : MeterRun) : MeterRun := { MeterRun.cleared with gapCount := r.gapCount }

theorem meterRun_unbindSlot (i j : Slot) (s : State) :
    (unbindSlot i s).meterRun j = if i = j then unboundRun (s.meterRun j) else s.meterRun j := by
  simp only [unbindSlot, State.meterRun, State.setMeterRun, sel_put]
  split
  · rename_i same
    subst same
    rfl
  · rfl

/-- A rebinding clears the run state of a slot or leaves it. -/
theorem meterRun_rebind (e : NodeEntry) (s : State) (i : Slot) :
    (rebind e s).meterRun i = s.meterRun i ∨ (rebind e s).meterRun i = unboundRun (s.meterRun i) := by
  obtain ⟨j, h⟩ | ⟨a, st, h⟩ | h | h := rebind_cases e s <;> rw [h]
  · rw [meterRun_unbindSlot]
    split
    · exact .inr rfl
    · exact .inl rfl
  · exact .inl (by simp only [State.meterRun, meter_clearHeld])
  · exact .inl rfl
  · exact .inl rfl

/-- A rebinding gives no channel a held report. -/
theorem held_rebind (e : NodeEntry) {s : State} {a : Arm} {st : Stream}
    (h : (s.chan a st).held = none) : ((rebind e s).chan a st).held = none := by
  obtain ⟨i, run⟩ | ⟨b, su, run⟩ | run | run := rebind_cases e s <;> rw [run]
  · cases st <;> exact h
  · rw [held_clearHeld, h, ite_self]
  · cases st <;> exact h
  · exact h

/-- A rebinding sets no permit bit and starts no timer. -/
theorem permits_rebind (e : NodeEntry) {s : State}
    (h : s.arms.permits = 0 ∧ s.arms.permitTimer = none) :
    (rebind e s).arms.permits = 0 ∧ (rebind e s).arms.permitTimer = none := by
  obtain ⟨i, run⟩ | ⟨b, su, run⟩ | run | run := rebind_cases e s <;> rw [run]
  · exact h
  · obtain ⟨bits, timer⟩ := permits_clearHeld b su s
    rwa [bits, timer]
  · exact ⟨rfl, rfl⟩
  · exact h

/-- From s to t all that reads an entry has been cleared (R23). -/
structure Unbinds (x : NodeEntry) (s t : State) : Prop where
  meter : isMeterRole x.role → t.meterRun x.slot = unboundRun (s.meterRun x.slot)
  valve : ∀ st, x.role = valveRole st → (t.chan x.arm st).held = none
  permit : x.role = .permit → t.arms.permits = 0 ∧ t.arms.permitTimer = none

theorem rebind_unbinds {x : NodeEntry} (s : State) (valid : x.valid = true) :
    Unbinds x s (rebind x s) where
  meter h := by rw [rebind_meter s valid h, meterRun_unbindSlot, if_pos rfl]
  valve st h := by rw [rebind_valve s valid h, held_clearHeld, if_pos ⟨rfl, rfl⟩]
  permit h := by rw [rebind_permit s valid h]; exact ⟨rfl, rfl⟩

/-- What is cleared stays cleared under another rebinding. -/
theorem Unbinds.then_rebind {x : NodeEntry} {s t : State} (h : Unbinds x s t) (y : NodeEntry) :
    Unbinds x s (rebind y t) where
  meter role := by
    obtain same | cleared := meterRun_rebind y t x.slot
    · rw [same, h.meter role]
    · rw [cleared, h.meter role]
      rfl
  valve st role := held_rebind y (h.valve st role)
  permit role := permits_rebind y (h.permit role)

/-- A rebinding before keeps the gap count that the later one finds. -/
theorem Unbinds.of_rebind {x y : NodeEntry} {s t : State} (h : Unbinds x (rebind y s) t) :
    Unbinds x s t where
  meter role := by
    rw [h.meter role]
    obtain same | cleared := meterRun_rebind y s x.slot
    · rw [same]
    · rw [cleared]
      rfl
  valve := h.valve
  permit := h.permit

/-- The new entry is written before what reads it is cleared. -/
theorem Unbinds.of_setNode {x e : NodeEntry} {i : Fin 223} {s t : State}
    (h : Unbinds x (setNode i e s) t) : Unbinds x s t := ⟨h.meter, h.valve, h.permit⟩

/-! ### The write that rebinds -/

/-- The state that a rebinding write leaves, before its alerts are judged and its answer joins. -/
def rebound (s : State) (n : Byte) (i : Fin 223) (e : NodeEntry) : State :=
  rebind e (rebind (nodeAt s n) (setNode i e s))

theorem rebound_reboundFrame (s : State) (n : Byte) (i : Fin 223) (e : NodeEntry) :
    reboundFrame (rebound s n i e) = reboundFrame (setNode i e s) := by
  rw [rebound, rebind_reboundFrame, rebind_reboundFrame]

/-- Both the old and the new entry are cleared (R23). -/
theorem rebound_unbinds {s : State} {n : Byte} (i : Fin 223) {e x : NodeEntry}
    (h : x = nodeAt s n ∨ x = e) (valid : x.valid = true) : Unbinds x s (rebound s n i e) := by
  obtain rfl | rfl := h
  · exact ((rebind_unbinds (setNode i e s) valid).then_rebind e).of_setNode
  · exact (rebind_unbinds (rebind (nodeAt s n) (setNode i x s)) valid).of_rebind.of_setNode

/-- A write that changes a binding in use by nothing is carried out (R20, R22). -/
theorem exec_rebinds {s : State} {h : ReqHead} {n : Byte} {i : Fin 223} {r : RawNode} {e : NodeEntry}
    (next : NextRequest s h (.writeNode n r)) (index : nodeIndex n = some i) (read : nodeOf r = some e)
    (free : ¬ Conflicts s n e) (rebinds : Rebinds (nodeAt s n) e) (old : ¬ Involves s n (nodeAt s n))
    (new : ¬ Involves s n e) : exec (.tableWriteNodeMap h n r) s =
      .next (result h 0x81 .done (settleAlerts (rebound (s.take (.request h (.writeNode n r))) n i e))) :=
  exec_judged next rfl (judgeNodeWrite_rebinds index read free rebinds old new)

/-- Settles O20: the write is judged in the state that has given back its slot; a rebinding is two steps, of the
old entry and of the new, of which neither undoes what the other clears. -/
theorem nodeMapWritesRebind : Obligations.NodeMapWritesRebind := by
  unfold Obligations.NodeMapWritesRebind
  refine ⟨fun s h n r next => ⟨fun index => ?_, fun index misfit => ?_, fun index fits => ?_⟩,
    fun s h n r e next index read free rebinds old new => ?_⟩
  · exact refuses_of_judged next rfl (judgeNodeWrite_badIndex index)
  · exact refuses_of_judged next rfl (judgeNodeWrite_badValue index misfit)
  · obtain ⟨i, at_i⟩ := exists_of_isSome_iff (isSome_nodeIndex n) index
    obtain ⟨e, read⟩ := exists_of_isSome_iff (isSome_nodeOf r) fits
    refine ⟨i, e, at_i, read, fun conflict => ?_, fun free rebinds used => ?_, fun free same => ?_,
      fun free rebinds old new => ?_⟩
    · exact refuses_of_judged next rfl (judgeNodeWrite_conflict at_i read conflict)
    · exact refuses_of_judged next rfl (judgeNodeWrite_inUse at_i read free rebinds used)
    · exact carriesOut_of_judged next rfl (judgeNodeWrite_same at_i read free same)
    · refine ⟨_, exec_rebinds next at_i read free rebinds old new, ?_⟩
      have frame := rebound_reboundFrame (s.take (.request h (.writeNode n r))) n i e
      simp only [reboundFrame, Prod.mk.injEq] at frame
      obtain ⟨⟨mgmt, portU, -, -, relay⟩, -⟩ := frame
      exact ⟨replied_result _ _ portU mgmt, relay⟩
  · obtain ⟨i, at_i⟩ := exists_of_isSome_iff (isSome_nodeIndex n) index
    refine ⟨_, exec_rebinds next at_i read free rebinds old new, fun x of valid => ?_, ?_⟩
    · obtain ⟨meter, valve, permit⟩ :=
        rebound_unbinds (s := s.take (.request h (.writeNode n r))) i of valid
      exact ⟨meter, valve, permit⟩
    · have frame := rebound_reboundFrame (s.take (.request h (.writeNode n r))) n i e
      simp only [reboundFrame, Prod.mk.injEq] at frame
      obtain ⟨⟨mgmt, -, d0, d1, -⟩, ctx, header, inj, stop, rep⟩ := frame
      have records : (rebound (s.take (.request h (.writeNode n r))) n i e).rep.records =
          s.rep.records := by rw [rep]; rfl
      exact ⟨inj, ctx, header, d0, d1, stop, mgmt, records⟩

end Sys2Proof.Machine
